-- ==== Sys2Proof/Word.lean ====
section
/-! DEFINITION. The word types of the block: the byte and the 64-bit command and response word, with the record of bytes
each of the two words stands for (spec/30_encoding.md R61, R63). -/

namespace Sys2Proof

/-- Every register, operand and result is one byte, unsigned unless a rule says otherwise (R5 `W_BYTE`, R7, R65). -/
abbrev Byte := BitVec 8

/-- A command or a response: one 64-bit word (R61, R63). -/
abbrev Word64 := BitVec 64

/-- The seven operand bytes of a command, or the seven result bytes of a response; index 0 is the most significant of the
seven in the word (R14, R61, R63). -/
abbrev Seven := Vector Byte 7

/-- The command record: the opcode byte and seven operand bytes (R14, R61). -/
structure Command where
  op  : Byte
  arg : Seven
  deriving DecidableEq, Repr

/-- The response record: the status byte and seven result bytes (R14, R63). -/
structure Response where
  status : Byte
  res    : Seven
  deriving DecidableEq, Repr

/-- Seven zero bytes: `FAIL_OUTPUT` of R5, and the results of an operation that defines none (R63). -/
def Seven.zero : Seven := #v[0x00, 0x00, 0x00, 0x00, 0x00, 0x00, 0x00]

end Sys2Proof
end

