-- ==== Sys2Proof/Machine/Operands.lean ====
section
/-! DEFINITION. How operand bytes and register bytes are read as numbers and fields: the operand forms of
spec/30_encoding.md R65, the BCD codec and the clamp of spec/40_bcd.md, and the masks of `getTime`. -/

namespace Sys2Proof.Machine

/-- A 1-bit operand: bit 0 of its byte (R65). -/
def low1 (b : Byte) : Byte := b &&& 0x01

/-- A 2-bit operand: bits 1:0 of its byte (R65). -/
def low2 (b : Byte) : Byte := b &&& 0x03

/-- A 3-bit operand: bits 2:0 of its byte (R65). -/
def low3 (b : Byte) : Byte := b &&& 0x07

/-- `OFFSET_MASK`: the low 6 bits of the offset value (R5, R125, R127). -/
def low6 (b : Byte) : Byte := b &&& 0x3F

/-- Bits 6:0 of a register byte (R28, R93, R140). -/
def low7 (b : Byte) : Byte := b &&& 0x7F

/-- Bit `n` of a byte, as 0 or 1 (R8). -/
def bitAt (b : Byte) (n : Nat) : Byte := (b >>> n) &&& 0x01

/-- `clamp(x, max)`: 0 in place of a value above the maximum (R85). -/
def clamp (x : Byte) (max : Nat) : Byte := if x.toNat > max then 0x00 else x

/-- The maxima of the clamped fields (R85). -/
def maxSeconds : Nat := 59
/-- R85. -/
def maxMinutes : Nat := 59
/-- R85. -/
def maxHours : Nat := 23
/-- R85. -/
def maxDay : Nat := 31
/-- R85. -/
def maxWeekday : Nat := 6
/-- R85. -/
def maxMonth : Nat := 12
/-- R85. -/
def maxYear : Nat := 99

/-- `decToBcd(x)` for `x <= 99`: the tens digit in the high nibble, the units digit in the low one (R69, R81). The
direct command gives no value above 99 from it (R82), and every other use is of a clamped value, at most 99 (R9, R88). -/
def bcd (x : Byte) : Byte := BitVec.ofNat 8 ((x.toNat / 10) <<< 4 ||| x.toNat % 10)

/-- The byte of a field as it is sent: clamped, then BCD (R70, R85, R90). -/
def bcdField (max : Nat) (x : Byte) : Byte := bcd (clamp x max)

/-- `bcdToDec(b)`, the formula on every byte (R83, R84). -/
def bcdToDec (b : Byte) : Byte := BitVec.ofNat 8 ((b.toNat >>> 4) * 10 + (b.toNat &&& 0x0F))

/-- The decode mask of Seconds, Minutes and, as `YEAR_MASK`, of Year (R5, R25, R93). -/
def mask7 : Byte := 0x7F

/-- The decode mask of Hours and Day (R25, R93). -/
def mask6 : Byte := 0x3F

/-- The decode mask of Month (R25, R93). -/
def mask5 : Byte := 0x1F

/-- The decode mask of Weekday (R25, R93). -/
def mask3 : Byte := 0x07

/-- The value of a time register byte: masked, then decoded (R93). -/
def decField (mask : Byte) (b : Byte) : Byte := bcdToDec (b &&& mask)

end Sys2Proof.Machine
end

