-- ==== Sys2Proof/Machine/Flags.lean ====
section
/-! DEFINITION. The flag and field layouts of the device registers (spec/10_state.md R21 to R30): the oscillator-stop
flag, the alarm disable bits, and Control1, Control2, Offset and Timer mode as fields. The block itself has no flags
(R16). -/

namespace Sys2Proof.Machine

/-- The OS flag of a Seconds byte: bit 7 (R27, R139). -/
def osFlag (seconds : Byte) : Byte := seconds >>> 7

/-- A Seconds byte with OS cleared and the other bits kept (R27, R140). -/
def clearOsFlag (seconds : Byte) : Byte := low7 seconds

/-- A Seconds byte with OS set and the other bits kept (R37). -/
def setOsFlag (seconds : Byte) : Byte := seconds ||| 0x80

/-- Bit 7 of an alarm register: 1 disables matching on its field (R28). -/
def alarmDisable : Byte := 0x80

/-- Bit 7 of alarm register `0x0B + i` from the enable mask: 0 where mask bit `i` is 1 (R102, R103; the inverted polarity
of spec/90_conflicts.md C3). -/
def disableBit (mask : Byte) (i : Nat) : Byte := bitAt (~~~mask) i <<< 7

/-- An alarm register with its value kept and its disable bit set from the mask (R104). -/
def withDisableBit (mask : Byte) (i : Nat) (b : Byte) : Byte := low7 b ||| disableBit mask i

/-- The Offset byte: the mode in bit 7, the low 6 bits of the value in bits 5:0, bit 6 zero (R23, R125;
spec/90_conflicts.md C1, C5). -/
def packOffset (mode offset : Byte) : Byte := low1 mode <<< 7 ||| low6 offset

/-- The mode bit of an Offset byte (R23, R127): 0 normal, 1 course. -/
def offsetMode (b : Byte) : Byte := b >>> 7

/-- The 6-bit value of an Offset byte, not sign-extended (R23, R127). -/
def offsetValue (b : Byte) : Byte := low6 b

/-- The Timer mode byte from its fields, bits 7:5 zero (R30, R120). -/
def packTimer (tiTp tie te tcf : Byte) : Byte :=
  low2 tcf <<< 3 ||| low1 te <<< 2 ||| low1 tie <<< 1 ||| low1 tiTp

/-- The fields `ti_tp`, `tie`, `te`, `tcf` of a Timer mode byte; bits 7:5 dropped (R30, R121). -/
def unpackTimer (b : Byte) : List Byte := [bitAt b 0, bitAt b 1, bitAt b 2, low2 (b >>> 3)]

/-- The Control1 byte from its fields, bits 6 and 3 zero (R21, R142; the bit order is log entry 16). -/
def packC1 (extTest stop swReset cie mode1224 capSel : Byte) : Byte :=
  low1 extTest <<< 7 ||| low1 stop <<< 5 ||| low1 swReset <<< 4 ||| low1 cie <<< 2 ||| low1 mode1224 <<< 1 |||
    low1 capSel

/-- The fields `ext_test`, `stop`, `sw_reset`, `cie`, `mode_12_24`, `cap_sel` of a Control1 byte; bits 6 and 3 dropped
(R21, R143; log entry 16). -/
def unpackC1 (b : Byte) : List Byte := [bitAt b 7, bitAt b 5, bitAt b 4, bitAt b 2, bitAt b 1, bitAt b 0]

/-- The Control2 byte from its fields (R22, R144; log entry 16). -/
def packC2 (aie af mi hmi tf cof : Byte) : Byte :=
  low1 aie <<< 7 ||| low1 af <<< 6 ||| low1 mi <<< 5 ||| low1 hmi <<< 4 ||| low1 tf <<< 3 ||| low3 cof

/-- The fields `aie`, `af`, `mi`, `hmi`, `tf`, `cof` of a Control2 byte (R22, R145; log entry 16). -/
def unpackC2 (b : Byte) : List Byte := [bitAt b 7, bitAt b 6, bitAt b 5, bitAt b 4, bitAt b 3, low3 b]

/-- The names of the timer clock selector's values, in listing order (R30; log entry 17). -/
inductive TimerClock where
  | hz4096 | hz64 | hz1 | hz1_60
  deriving DecidableEq, Repr

/-- What a `tcf` field selects (R30). -/
def timerClock (tcf : Byte) : TimerClock :=
  match (low2 tcf).toNat with
  | 0 => .hz4096
  | 1 => .hz64
  | 2 => .hz1
  | _ => .hz1_60

/-- The names of the offset mode bit's values (R23; log entry 17). -/
inductive OffsetMode where
  | normal | course
  deriving DecidableEq, Repr

/-- What the mode bit selects (R23). -/
def offsetModeName (mode : Byte) : OffsetMode := if low1 mode = 0 then .normal else .course

end Sys2Proof.Machine
end

