-- ==== Sys2Proof/Config.lean ====
section
/-! DEFINITION. What is fixed for the block (spec/00_scope.md R5) and the free values of the spec. The named parameters of
R5 that a run may vary (`ALARM_ENABLE_CLOBBER`, `CLEAROS_LITERAL`, `INIT_IMAGE`, `BUS_ERR_CODE`, `ENV`) are plain data in
State, so that a statement about every state is a statement about every value of them. -/

namespace Sys2Proof.Config

/-- `DEV_ADDR`: the device address of every bus transaction, 7 bits (R5, R43). -/
def devAddr : BitVec 7 := 0x51

/-- `REG_LO`: the lowest register the block addresses (R5). -/
def regLo : Nat := 0x00

/-- `REG_HI`: the highest register the block addresses (R5, R31). -/
def regHi : Nat := 0x11

/-- `STATUS_OK` (R5, R64). -/
def statusOk : Byte := 0x00

/-- `STATUS_ILLEGAL` (R5, R64, R67). -/
def statusIllegal : Byte := 0xFF

/-- `draw8()` of R8: the byte no rule constrains, one for each value of the counter `State.draws`. It has no body, so no
proof can know a value of it (R82, R47, R141). FREE VALUE, log entry 4. -/
opaque draw8 : Nat → Byte

/-- What the device's register pointer holds where the spec leaves it open, one value for each value of the counter
`State.draws` (R39; spec/91_not_in_source.md N5). FREE VALUE, log entries 3 and 4. -/
opaque pointerDraw : Nat → Byte

end Sys2Proof.Config
end

