-- ==== Sys2Proof/Syntax.lean ====
section
/-! DEFINITION. The 27 operations of spec/30_encoding.md R66 and spec/opcode_table.json, one constructor each, with the
operand bytes the operation names, in operand order. Operand bytes an operation does not name are ignored (R65) and so
are no part of the instruction; the bits a narrower operand does not use are part of its byte and are ignored by the
meaning. -/

namespace Sys2Proof

/-- An operation with its operand bytes (R66). -/
inductive Instr where
  | decToBcd (value : Byte)
  | bcdToDec (bcd : Byte)
  | setTime (seconds minutes hours day weekday month year : Byte)
  | getTime
  | setAlarm (seconds minutes hours day weekday : Byte)
  | enableAlarm (enableMask : Byte)
  | setTimer (value mode : Byte)
  | setTimerMode (mode : Byte)
  | setTimerValue (value : Byte)
  | getTimerMode
  | getTimerValue
  | packTimerMode (tiTp tie te tcf : Byte)
  | unpackTimerMode (mode : Byte)
  | setOffset (mode offset : Byte)
  | getOffset
  | setControl1 (byte : Byte)
  | getControl1
  | setControl2 (byte : Byte)
  | getControl2
  | setRam (byte : Byte)
  | getRam
  | getOS
  | clearOS
  | packControl1 (extTest stop swReset cie mode1224 capSel : Byte)
  | unpackControl1 (byte : Byte)
  | packControl2 (aie af mi hmi tf cof : Byte)
  | unpackControl2 (byte : Byte)
  deriving DecidableEq, Repr

end Sys2Proof
end

