-- ==== Sys2Proof/WellFormed.lean ====
section
/-! DEFINITION. The written form of a command (spec/30_encoding.md R72) and its checks. An instruction of `Instr` holds
bytes, and every byte is a legal operand (R65), so what can be ill-formed is a command as it is WRITTEN: an unknown
mnemonic, a wrong number of operands, a number that is no byte, a negative number or a weekday name where none may
stand. -/

namespace Sys2Proof

/-- The weekday names; the spec fixes Sunday and Wednesday, the rest follow the calendar (R12; log entry 17). -/
inductive Weekday where
  | sunday | monday | tuesday | wednesday | thursday | friday | saturday
  deriving DecidableEq, Repr

/-- The ordinal of a weekday: an "enum 0–6, Sunday=0" (R12). -/
def Weekday.ordinal : Weekday → Byte
  | .sunday => 0 | .monday => 1 | .tuesday => 2 | .wednesday => 3 | .thursday => 4 | .friday => 5 | .saturday => 6

/-- One written operand: a number, or a weekday by its name (R72). -/
inductive AsmArg where
  | num (n : Int)
  | weekday (d : Weekday)
  deriving DecidableEq, Repr

/-- A written command: the mnemonic of R66 and the operands in operand order (R72). -/
structure AsmCall where
  mnemonic : String
  operands : List AsmArg
  deriving DecidableEq, Repr

/-- The number of operands each mnemonic names (R66); none for a name that is no mnemonic. -/
def operandCount (m : String) : Option Nat :=
  match m with
  | "decToBcd" => some 1 | "bcdToDec" => some 1
  | "setTime" => some 7 | "getTime" => some 0
  | "setAlarm" => some 5 | "enableAlarm" => some 1
  | "setTimer" => some 2 | "setTimerMode" => some 1 | "setTimerValue" => some 1
  | "getTimerMode" => some 0 | "getTimerValue" => some 0
  | "packTimerMode" => some 4 | "unpackTimerMode" => some 1
  | "setOffset" => some 2 | "getOffset" => some 0
  | "setControl1" => some 1 | "getControl1" => some 0
  | "setControl2" => some 1 | "getControl2" => some 0
  | "setRam" => some 1 | "getRam" => some 0
  | "getOS" => some 0 | "clearOS" => some 0
  | "packControl1" => some 6 | "unpackControl1" => some 1
  | "packControl2" => some 6 | "unpackControl2" => some 1
  | _ => none

/-- Operand `k` of mnemonic `m` is the signed `offset` operand, the one that may be written negative (R72). -/
def mayBeNegative (m : String) (k : Nat) : Bool := m == "setOffset" && k == 1

/-- Operand `k` of mnemonic `m` is a weekday, which may be written by name (R72). -/
def mayBeWeekday (m : String) (k : Nat) : Bool := (m == "setTime" || m == "setAlarm") && k == 4

/-- One written operand is legal in its place: a byte 0 to 255; a negative number of 8 bits for `offset` only; a weekday
name for a weekday only (R65, R72). -/
def AsmArg.legal (m : String) (k : Nat) : AsmArg → Bool
  | .num n => (decide (0 ≤ n) && decide (n ≤ 255)) || (mayBeNegative m k && decide (-128 ≤ n) && decide (n < 0))
  | .weekday _ => mayBeWeekday m k

/-- Every operand from place `k` on is legal. -/
def legalOperands (m : String) : Nat → List AsmArg → Bool
  | _, [] => true
  | k, a :: as => a.legal m k && legalOperands m (k + 1) as

/-- A written command is well formed: a mnemonic of R66, its number of operands, each legal in its place. -/
def AsmCall.wellFormed (c : AsmCall) : Bool :=
  decide (operandCount c.mnemonic = some c.operands.length) && legalOperands c.mnemonic 0 c.operands

/-- A byte as it is written: its unsigned value (R65). -/
def AsmArg.byte (b : Byte) : AsmArg := .num b.toNat

/-- How an instruction is written (R66, R72). -/
def Instr.call : Instr → AsmCall
  | .decToBcd v => ⟨"decToBcd", [.byte v]⟩
  | .bcdToDec b => ⟨"bcdToDec", [.byte b]⟩
  | .setTime a b c d e f g => ⟨"setTime", [.byte a, .byte b, .byte c, .byte d, .byte e, .byte f, .byte g]⟩
  | .getTime => ⟨"getTime", []⟩
  | .setAlarm a b c d e => ⟨"setAlarm", [.byte a, .byte b, .byte c, .byte d, .byte e]⟩
  | .enableAlarm m => ⟨"enableAlarm", [.byte m]⟩
  | .setTimer v m => ⟨"setTimer", [.byte v, .byte m]⟩
  | .setTimerMode m => ⟨"setTimerMode", [.byte m]⟩
  | .setTimerValue v => ⟨"setTimerValue", [.byte v]⟩
  | .getTimerMode => ⟨"getTimerMode", []⟩
  | .getTimerValue => ⟨"getTimerValue", []⟩
  | .packTimerMode a b c d => ⟨"packTimerMode", [.byte a, .byte b, .byte c, .byte d]⟩
  | .unpackTimerMode m => ⟨"unpackTimerMode", [.byte m]⟩
  | .setOffset m o => ⟨"setOffset", [.byte m, .byte o]⟩
  | .getOffset => ⟨"getOffset", []⟩
  | .setControl1 b => ⟨"setControl1", [.byte b]⟩
  | .getControl1 => ⟨"getControl1", []⟩
  | .setControl2 b => ⟨"setControl2", [.byte b]⟩
  | .getControl2 => ⟨"getControl2", []⟩
  | .setRam b => ⟨"setRam", [.byte b]⟩
  | .getRam => ⟨"getRam", []⟩
  | .getOS => ⟨"getOS", []⟩
  | .clearOS => ⟨"clearOS", []⟩
  | .packControl1 a b c d e f => ⟨"packControl1", [.byte a, .byte b, .byte c, .byte d, .byte e, .byte f]⟩
  | .unpackControl1 b => ⟨"unpackControl1", [.byte b]⟩
  | .packControl2 a b c d e f => ⟨"packControl2", [.byte a, .byte b, .byte c, .byte d, .byte e, .byte f]⟩
  | .unpackControl2 b => ⟨"unpackControl2", [.byte b]⟩

/-- An instruction is well formed when what it is written as passes the checks of R72. Every instruction is: its operands
are bytes, and every byte is a legal operand (R65; `Sys2Proof.Laws.instr_wellFormed`). -/
def Instr.wellFormed (i : Instr) : Bool := i.call.wellFormed

end Sys2Proof
end

