-- ==== Sys2Proof/Decode.lean ====
section
/-! DEFINITION. From words to instructions and back (spec/30_encoding.md R61 to R67, R72, R74): the layout of the command
and the response word, the decoder (total, an illegal opcode rejected by name), the encoder, and the assembler of a
written command. -/

namespace Sys2Proof

/-- Why a word is no command: its opcode byte is none of the 27 values of R66 (R67). Raised by `decode`; the step answers
it with the response of R154, so no run stops on it (safe). -/
inductive DecodeError where
  | illegalCommand (op : Byte)
  deriving DecidableEq, Repr

/-- Byte `k` of a 64-bit word, byte 0 the most significant (R61, R63). -/
def byteOf (w : Word64) (k : Nat) : Byte := w.extractLsb' (56 - 8 * k) 8

/-- Eight bytes as one 64-bit word, the first in bits 63:56, the last in bits 7:0 (R61, R63). -/
def wordOf (b : Byte) (v : Seven) : Word64 := b ++ v[0] ++ v[1] ++ v[2] ++ v[3] ++ v[4] ++ v[5] ++ v[6]

/-- Bytes 1 to 7 of a word. -/
def sevenOf (w : Word64) : Seven :=
  #v[byteOf w 1, byteOf w 2, byteOf w 3, byteOf w 4, byteOf w 5, byteOf w 6, byteOf w 7]

/-- The command a word stands for: `op` in bits 63:56, `arg[0]` in 55:48 down to `arg[6]` in 7:0 (R61). -/
def Command.ofWord (w : Word64) : Command := ⟨byteOf w 0, sevenOf w⟩

/-- The word of a command (R61). -/
def Command.toWord (c : Command) : Word64 := wordOf c.op c.arg

/-- The word of a response: `status` in bits 63:56, `res[0]` in 55:48 down to `res[6]` in 7:0 (R63). -/
def Response.toWord (r : Response) : Word64 := wordOf r.status r.res

/-- The instruction of a command: selected by `op` alone, operand bytes it does not name ignored; every `op` outside the
27 values of R66 is illegal (R62, R65, R66, R67). -/
def decodeCommand (c : Command) : Except DecodeError Instr :=
  match c.op.toNat with
  | 0x01 => .ok (.decToBcd c.arg[0])
  | 0x02 => .ok (.bcdToDec c.arg[0])
  | 0x10 => .ok (.setTime c.arg[0] c.arg[1] c.arg[2] c.arg[3] c.arg[4] c.arg[5] c.arg[6])
  | 0x11 => .ok .getTime
  | 0x20 => .ok (.setAlarm c.arg[0] c.arg[1] c.arg[2] c.arg[3] c.arg[4])
  | 0x21 => .ok (.enableAlarm c.arg[0])
  | 0x30 => .ok (.setTimer c.arg[0] c.arg[1])
  | 0x31 => .ok (.setTimerMode c.arg[0])
  | 0x32 => .ok (.setTimerValue c.arg[0])
  | 0x33 => .ok .getTimerMode
  | 0x34 => .ok .getTimerValue
  | 0x35 => .ok (.packTimerMode c.arg[0] c.arg[1] c.arg[2] c.arg[3])
  | 0x36 => .ok (.unpackTimerMode c.arg[0])
  | 0x40 => .ok (.setOffset c.arg[0] c.arg[1])
  | 0x41 => .ok .getOffset
  | 0x42 => .ok (.setControl1 c.arg[0])
  | 0x43 => .ok .getControl1
  | 0x44 => .ok (.setControl2 c.arg[0])
  | 0x45 => .ok .getControl2
  | 0x46 => .ok (.setRam c.arg[0])
  | 0x47 => .ok .getRam
  | 0x48 => .ok .getOS
  | 0x49 => .ok .clearOS
  | 0x4A => .ok (.packControl1 c.arg[0] c.arg[1] c.arg[2] c.arg[3] c.arg[4] c.arg[5])
  | 0x4B => .ok (.unpackControl1 c.arg[0])
  | 0x4C => .ok (.packControl2 c.arg[0] c.arg[1] c.arg[2] c.arg[3] c.arg[4] c.arg[5])
  | 0x4D => .ok (.unpackControl2 c.arg[0])
  | _ => .error (.illegalCommand c.op)

/-- Decoding a command word, total on every word (R61, R62, R67). -/
def decode (w : Word64) : Except DecodeError Instr := decodeCommand (Command.ofWord w)

/-- The 27 opcode values of R66, in the order of the table. -/
def opcodes : List Byte :=
  [0x01, 0x02, 0x10, 0x11, 0x20, 0x21, 0x30, 0x31, 0x32, 0x33, 0x34, 0x35, 0x36] ++
  [0x40, 0x41, 0x42, 0x43, 0x44, 0x45, 0x46, 0x47, 0x48, 0x49, 0x4A, 0x4B, 0x4C, 0x4D]

/-- The opcode value of an instruction (R66). -/
def Instr.opcode : Instr → Byte
  | .decToBcd .. => 0x01 | .bcdToDec .. => 0x02
  | .setTime .. => 0x10 | .getTime => 0x11
  | .setAlarm .. => 0x20 | .enableAlarm .. => 0x21
  | .setTimer .. => 0x30 | .setTimerMode .. => 0x31 | .setTimerValue .. => 0x32
  | .getTimerMode => 0x33 | .getTimerValue => 0x34
  | .packTimerMode .. => 0x35 | .unpackTimerMode .. => 0x36
  | .setOffset .. => 0x40 | .getOffset => 0x41
  | .setControl1 .. => 0x42 | .getControl1 => 0x43
  | .setControl2 .. => 0x44 | .getControl2 => 0x45
  | .setRam .. => 0x46 | .getRam => 0x47
  | .getOS => 0x48 | .clearOS => 0x49
  | .packControl1 .. => 0x4A | .unpackControl1 .. => 0x4B
  | .packControl2 .. => 0x4C | .unpackControl2 .. => 0x4D

/-- The operand bytes of an instruction, the ones it does not name filled with `0x00` (R66, R72). -/
def Instr.args : Instr → Seven
  | .decToBcd v => #v[v, 0, 0, 0, 0, 0, 0]
  | .bcdToDec b => #v[b, 0, 0, 0, 0, 0, 0]
  | .setTime a b c d e f g => #v[a, b, c, d, e, f, g]
  | .getTime => Seven.zero
  | .setAlarm a b c d e => #v[a, b, c, d, e, 0, 0]
  | .enableAlarm m => #v[m, 0, 0, 0, 0, 0, 0]
  | .setTimer v m => #v[v, m, 0, 0, 0, 0, 0]
  | .setTimerMode m => #v[m, 0, 0, 0, 0, 0, 0]
  | .setTimerValue v => #v[v, 0, 0, 0, 0, 0, 0]
  | .getTimerMode => Seven.zero
  | .getTimerValue => Seven.zero
  | .packTimerMode a b c d => #v[a, b, c, d, 0, 0, 0]
  | .unpackTimerMode m => #v[m, 0, 0, 0, 0, 0, 0]
  | .setOffset m o => #v[m, o, 0, 0, 0, 0, 0]
  | .getOffset => Seven.zero
  | .setControl1 b => #v[b, 0, 0, 0, 0, 0, 0]
  | .getControl1 => Seven.zero
  | .setControl2 b => #v[b, 0, 0, 0, 0, 0, 0]
  | .getControl2 => Seven.zero
  | .setRam b => #v[b, 0, 0, 0, 0, 0, 0]
  | .getRam => Seven.zero
  | .getOS => Seven.zero
  | .clearOS => Seven.zero
  | .packControl1 a b c d e f => #v[a, b, c, d, e, f, 0]
  | .unpackControl1 b => #v[b, 0, 0, 0, 0, 0, 0]
  | .packControl2 a b c d e f => #v[a, b, c, d, e, f, 0]
  | .unpackControl2 b => #v[b, 0, 0, 0, 0, 0, 0]

/-- The command of an instruction. -/
def Instr.command (i : Instr) : Command := ⟨i.opcode, i.args⟩

/-- The word of an instruction (R61, R66, R72). -/
def encode (i : Instr) : Word64 := i.command.toWord

/-- The mask of the bits of its word that an instruction reads: the opcode byte and the operand bytes it names
(`source_fields` of spec/opcode_table.json less the row's `ignored`; R65, R66). -/
def Instr.usedBits : Instr → Word64
  | .getTime | .getTimerMode | .getTimerValue | .getOffset | .getControl1 | .getControl2 | .getRam | .getOS
  | .clearOS => 0xFF00000000000000
  | .decToBcd .. | .bcdToDec .. | .enableAlarm .. | .setTimerMode .. | .setTimerValue .. | .unpackTimerMode ..
  | .setControl1 .. | .setControl2 .. | .setRam .. | .unpackControl1 .. | .unpackControl2 .. => 0xFFFF000000000000
  | .setTimer .. | .setOffset .. => 0xFFFFFF0000000000
  | .packTimerMode .. => 0xFFFFFFFFFF000000
  | .setAlarm .. => 0xFFFFFFFFFFFF0000
  | .packControl1 .. | .packControl2 .. => 0xFFFFFFFFFFFFFF00
  | .setTime .. => 0xFFFFFFFFFFFFFFFF

/-- The byte a written operand stands for: a negative number is its 8-bit two's-complement byte, a weekday name its
ordinal (R12, R65, R72). -/
def AsmArg.toByte : AsmArg → Byte
  | .num n => BitVec.ofInt 8 n
  | .weekday d => d.ordinal

/-- The instruction of a mnemonic and its operand bytes; none where the number of operands is wrong or the name is no
mnemonic (R66, R72, R73). -/
def instrOf (m : String) (args : List Byte) : Option Instr :=
  match m, args with
  | "decToBcd", [v] => some (.decToBcd v)
  | "bcdToDec", [b] => some (.bcdToDec b)
  | "setTime", [a, b, c, d, e, f, g] => some (.setTime a b c d e f g)
  | "getTime", [] => some .getTime
  | "setAlarm", [a, b, c, d, e] => some (.setAlarm a b c d e)
  | "enableAlarm", [k] => some (.enableAlarm k)
  | "setTimer", [v, k] => some (.setTimer v k)
  | "setTimerMode", [k] => some (.setTimerMode k)
  | "setTimerValue", [v] => some (.setTimerValue v)
  | "getTimerMode", [] => some .getTimerMode
  | "getTimerValue", [] => some .getTimerValue
  | "packTimerMode", [a, b, c, d] => some (.packTimerMode a b c d)
  | "unpackTimerMode", [k] => some (.unpackTimerMode k)
  | "setOffset", [k, o] => some (.setOffset k o)
  | "getOffset", [] => some .getOffset
  | "setControl1", [b] => some (.setControl1 b)
  | "getControl1", [] => some .getControl1
  | "setControl2", [b] => some (.setControl2 b)
  | "getControl2", [] => some .getControl2
  | "setRam", [b] => some (.setRam b)
  | "getRam", [] => some .getRam
  | "getOS", [] => some .getOS
  | "clearOS", [] => some .clearOS
  | "packControl1", [a, b, c, d, e, f] => some (.packControl1 a b c d e f)
  | "unpackControl1", [b] => some (.unpackControl1 b)
  | "packControl2", [a, b, c, d, e, f] => some (.packControl2 a b c d e f)
  | "unpackControl2", [b] => some (.unpackControl2 b)
  | _, _ => none

/-- The assembler: a well-formed written command gives its instruction, and so its word (R72). -/
def assemble (c : AsmCall) : Option Instr :=
  if c.wellFormed then instrOf c.mnemonic (c.operands.map AsmArg.toByte) else none

/-- The word whose bits 0 to `nbits - 1` are those of `w`, the rest 0; the block stores a command nowhere, so the word
itself is its layout (R61; log entry 10). -/
def tableWord (nbits w : Nat) : Word64 := BitVec.ofNat 64 (w % 2 ^ nbits)

/-- The instruction the decoder reads from the bits of an opcode-table row; none where it refuses. -/
def decodeTableWord (nbits w : Nat) : Option Instr := (decode (tableWord nbits w)).toOption

end Sys2Proof
end

