-- ==== Sys2Proof/Machine/State.lean ====
section
/-! DEFINITION. The state of the machine (spec/10_state.md, spec/20_memory.md): the transient records and configuration
inputs of the block, the register image and pointer of the device, the transport's answers to come, what the outside world
is about to do, and the model's own trace and draw counter. All plain data. -/

namespace Sys2Proof.Machine

/-- A failure code of the transport, one of `0x01..0xFE`: `BUS_ERR_CODE` of R5 is a subset of these, and a statement about
every state covers every subset (R64, R152). The bound is part of the value, so a failure can never be read as `OK` or as
`IllegalCommand`. -/
structure BusErr where
  code  : Byte
  legal : 0x01 ≤ code.toNat ∧ code.toNat ≤ 0xFE
  deriving DecidableEq, Repr

/-- How the transport and the device answer one transaction (R44 to R46, R52 to R55, R155). -/
inductive Answer where
  /-- Every phase succeeds; a read returns the bytes of the register image. -/
  | done
  /-- Every phase succeeds; a read returns these bytes (the image's where the list is short), whatever the image holds:
  the device need not give back what was written (R20, R51, R52). A write takes no notice of them. -/
  | doneGiving (bytes : List Byte)
  /-- The first phase fails: nothing is stored and no data phase is attempted (R46, R54). -/
  | pointerFails (e : BusErr)
  /-- The data phase fails: a write has stored the first `stored` bytes of its payload, a read has changed no register
  (R54). -/
  | dataFails (e : BusErr) (stored : Nat)
  /-- The transport never completes (R155). -/
  | never
  deriving DecidableEq, Repr

/-- One change the environment makes to a device register by itself (R6, R52 `idle`, R55). -/
structure Move where
  reg   : Fin 18
  value : Byte
  deriving DecidableEq, Repr

/-- One entry of the transport's script: what the device changes by itself before the next transaction, and how that
transaction is answered (R52, R55). -/
structure BusEvent where
  moves  : List Move
  answer : Answer
  deriving DecidableEq, Repr

/-- One bus transaction as the block issued it and the transport answered it (R44 to R47). -/
inductive Transaction where
  /-- `MemWrite(addr, n, bytes)` with its status (R45); no bytes for the pointer-only write (R47). -/
  | write (addr : Byte) (bytes : List Byte) (status : Byte)
  /-- `MemRead(addr, n)`: the status of the pointer phase and, where the data phase was attempted, its status and the
  bytes read (R46). -/
  | read (addr : Byte) (n : Nat) (pointerStatus : Byte) (data : Option (Byte × List Byte))
  /-- `RawRead()` with the byte it gave (R47). -/
  | rawRead (byte : Byte)
  deriving DecidableEq, Repr

/-- What the outside world does next; one step of the machine takes one of these (R6, R15, R52). -/
inductive Input where
  /-- The host presents a command word (R61). -/
  | command (w : Word64)
  /-- Between two commands the environment changes device registers by itself (R52 `idle`, R55); it leaves the
  register pointer alone (DESIGN CHOICE, log entry 20). -/
  | idle (moves : List Move)
  /-- The device's power is interrupted: some registers may change, and OS becomes 1 (R37, R38). -/
  | powerInterruption (moves : List Move)
  /-- The failure setting of the storing mock is changed (R53, spec/95_test_vectors.md P6). -/
  | setFailure (f : Option BusErr)
  deriving DecidableEq, Repr

/-- The device's register space: pairs of register address and byte in one canonical form (`Memory.wf` of Ops.lean): the
addresses strictly rising, each at most `0x11`, and no entry equal to what an unlisted address reads as (R19, R41). -/
abbrev Memory := List Host.Cell

/-- The whole state. -/
structure State where
  /-- `op` and `arg[0..6]` of the current command, written by the host (R14). -/
  cmd : Command
  /-- `status` of the last response (R14, R64). -/
  status : Byte
  /-- `res[0..6]` of the last response (R14, R63). -/
  res : Seven
  /-- Configuration input `ALARM_ENABLE_CLOBBER` (R5, R17). -/
  alarmEnableClobber : Bool
  /-- Configuration input `CLEAROS_LITERAL` (R5, R17). -/
  clearosLiteral : Bool
  /-- The device's register image `REG[0x00..0x11]` (R19). -/
  regs : Memory
  /-- The device's register pointer (R32). -/
  ptr : Byte
  /-- The storing mock's failure setting `F`: none, or the status every transaction returns (R53). It answers the
  transactions the script has no entry for. -/
  failure : Option BusErr
  /-- The transport's answers to the next transactions, in order: the environment `ENV` of R52 as plain data. -/
  script : List BusEvent
  /-- What the host and the environment will do, in order, one a step (R6, R15). -/
  inbox : List Input
  /-- The model's own: every transaction issued so far, oldest first; the total order of R56. -/
  trace : List Transaction
  /-- The model's own: how many free values have been drawn (R8 `draw8()`). -/
  draws : Nat
  deriving DecidableEq, Repr

/-- Why the machine stops. -/
inductive Fault where
  /-- A phase of a transaction never completes, so the operation has no response and no further command is accepted: a
  stuck state (R155; spec/93_implementation_defined.md U10). Raised by every operation that issues a transaction. Safe:
  the machine stops exactly where the hardware waits for ever. -/
  | transportNeverCompletes
  deriving DecidableEq, Repr

/-- Why an instruction has no meaning. -/
inductive Refusal where
  /-- The instruction has no meaning in the model yet. No arm answers it: all 27 operations are modelled. Safe. -/
  | notModelled (mnemonic : String)
  deriving DecidableEq, Repr

/-- The machine after power-up: the block has nothing to initialise and waits for a command (R35, R170), the configuration
inputs have their defaults (R36), no register of the device is listed, so each reads as `Memory.initByte` says (OS is 1
after a power loss, R37, R171; the rest is log entry 1), and the environment is the storing mock without failures (R53).
The records, the pointer and the counter hold the values of log entries 2, 3 and 4. -/
def State.reset : State where
  cmd := ⟨0x00, Seven.zero⟩
  status := 0x00
  res := Seven.zero
  alarmEnableClobber := true
  clearosLiteral := false
  regs := []
  ptr := 0x00
  failure := none
  script := []
  inbox := []
  trace := []
  draws := 0

end Sys2Proof.Machine
end

