-- ==== Sys2Proof/Machine/Ops.lean ====
section
/-! DEFINITION. The named operations every meaning is built from: the register space (spec/20_memory.md R41 to R51), the
environment (R52 to R55, spec/10_state.md R37), the two transaction shapes and the raw read (R44 to R47), the responses,
the one error and the illegal command (spec/60_exceptions.md R150 to R157). -/

namespace Sys2Proof.Machine

/-! ### The register space -/

/-- What an unlisted register reads as: the register image at power-up. Seconds has OS = 1 (R37, R171); every other bit
has no stated value (R38) and is 0 (DESIGN CHOICE, log entry 1). -/
def Memory.initByte (a : Nat) : Byte := if a = 0x04 then 0x80 else 0x00

/-- Read one register (R19, R46). -/
def Memory.read : Memory → Nat → Byte
  | [], a => Memory.initByte a
  | (k, b) :: m, a => if k = a then b else Memory.read m a

/-- Take every entry of an address out of the list. -/
def Memory.erase : Memory → Nat → Memory
  | [], _ => []
  | (k, b) :: m, a => if k = a then Memory.erase m a else (k, b) :: Memory.erase m a

/-- Put an entry in its place in the list, over one for the same address. -/
def Memory.insert : Memory → Nat → Byte → Memory
  | [], a, b => [(a, b)]
  | (k, c) :: m, a, b =>
    if a < k then (a, b) :: (k, c) :: m
    else if k = a then (a, b) :: m
    else (k, c) :: Memory.insert m a b

/-- Write one register; the byte an unlisted register reads as is not listed (R45). -/
def Memory.write (m : Memory) (a : Nat) (b : Byte) : Memory :=
  if b = Memory.initByte a then m.erase a else m.insert a b

/-- Write bytes to consecutive registers, in increasing order (R45, R48). -/
def Memory.writes : Memory → Nat → List Byte → Memory
  | m, _, [] => m
  | m, a, b :: bs => Memory.writes (m.write a b) (a + 1) bs

/-- The bytes of `n` consecutive registers, lowest address first (R46, R48). -/
def Memory.reads : Memory → Nat → Nat → List Byte
  | _, _, 0 => []
  | m, a, n + 1 => m.read a :: Memory.reads m (a + 1) n

/-- Every entry of the list lies above `lo` and the addresses rise, each entry at most `0x11` and different from what an
unlisted register reads as. -/
def Memory.wfFrom : Nat → Memory → Bool
  | _, [] => true
  | lo, (k, b) :: m =>
    decide (lo ≤ k) && decide (k ≤ Config.regHi) && decide (b ≠ Memory.initByte k) && Memory.wfFrom (k + 1) m

/-- The one canonical form of the register image: equal images are equal lists (R19; log entry 1). -/
def Memory.wf (m : Memory) : Bool := Memory.wfFrom Config.regLo m

/-- A register image with given contents: `INIT_IMAGE` (R5, R38), the first byte that of register `0x00`. -/
def Memory.ofImage (image : List Byte) : Memory := Memory.writes [] Config.regLo (image.take 18)

/-- The 18 bytes `REG[0x00..0x11]`. -/
def Memory.image (m : Memory) : List Byte := m.reads Config.regLo 18

/-- The machine at power-up over a device whose registers hold `INIT_IMAGE` (R5, R38). `State.reset` is the one with every
register as `Memory.initByte` says. -/
def State.powerUp (image : List Byte) (clobber literal : Bool) : State :=
  { State.reset with regs := Memory.ofImage image, alarmEnableClobber := clobber, clearosLiteral := literal }

/-! ### Free values and the register pointer -/

/-- The free value of `draw8()` at this point (R8). -/
def State.drawn (s : State) : Byte := Config.draw8 s.draws

/-- One free value has been used. -/
def State.drew (s : State) : State := { s with draws := s.draws + 1 }

/-- The register pointer is left open (R39): a free value. -/
def State.losePointer (s : State) : State := { s with ptr := Config.pointerDraw s.draws, draws := s.draws + 1 }

/-- The register pointer after `n` data bytes from register `a` on: one register further for each byte (R32, R45); past
`0x11` the spec says nothing of it (R31; spec/91_not_in_source.md N5), so it is a free value (log entry 3). -/
def State.movePointer (s : State) (a : Byte) (n : Nat) : State :=
  if a.toNat + n ≤ Config.regHi then { s with ptr := a + BitVec.ofNat 8 n } else s.losePointer

/-! ### The environment -/

/-- Changes the environment makes to registers by itself, in order (R52, R55). -/
def Memory.applyMoves : Memory → List Move → Memory
  | m, [] => m
  | m, v :: vs => Memory.applyMoves (m.write v.reg.val v.value) vs

/-- The device changes registers by itself (R52, R55). That it leaves the register pointer alone is the model's choice: R52
lets `idle` give any state of the environment, the pointer of R32 included (DESIGN CHOICE, log entry 20). -/
def State.environmentMoves (s : State) (moves : List Move) : State := { s with regs := s.regs.applyMoves moves }

/-- A power interruption of the device: `REG[0x04][7] <- 1`, the rest of the image as the environment leaves it, the pointer
left open (R37, R38, R39; log entry 14). -/
def State.powerInterruption (s : State) (moves : List Move) : State :=
  let m := s.regs.applyMoves moves
  ({ s with regs := m.write 0x04 (setOsFlag (m.read 0x04)) }).losePointer

/-- How the storing mock answers: with success, or with its failure setting in the address phase (R53). -/
def mockAnswer : Option BusErr → Answer
  | none => .done
  | some e => .pointerFails e

/-- What the environment does at the next transaction: the script's next entry, and the storing mock's answer when the
script has none (R52, R53). -/
def State.nextEvent (s : State) : BusEvent :=
  match s.script with
  | ev :: _ => ev
  | [] => ⟨[], mockAnswer s.failure⟩

/-- The answer to the next transaction. -/
def State.nextAnswer (s : State) : Answer := s.nextEvent.answer

/-- The state as the next transaction finds it: its entry of the script taken, the device's own changes before it made
(R52, R55; they leave the pointer alone, log entry 20). -/
def State.reach (s : State) : State :=
  { s with regs := s.regs.applyMoves s.nextEvent.moves, script := s.script.tail }

/-- Every phase of a transaction answered so succeeds. -/
def Answer.succeeds : Answer → Bool
  | .done => true
  | .doneGiving _ => true
  | .pointerFails _ => false
  | .dataFails _ _ => false
  | .never => false

/-- The failure a transaction answered so reports: the status of its first failing phase (R46, R150). -/
def Answer.failure : Answer → Option BusErr
  | .done => none
  | .doneGiving _ => none
  | .pointerFails e => some e
  | .dataFails e _ => some e
  | .never => none

/-- How many bytes of its payload a failed write answered so has stored (R54). -/
def Answer.stored : Answer → Nat
  | .done => 0
  | .doneGiving _ => 0
  | .pointerFails _ => 0
  | .dataFails _ j => j
  | .never => 0

/-- The bytes a successful read returns: the given ones, and the image's where none is given (R46, R52). -/
def Answer.bytes (a : Answer) (image : List Byte) : List Byte :=
  match a with
  | .doneGiving d => d.take image.length ++ image.drop d.length
  | _ => image

/-! ### Transactions -/

/-- A transaction is over; it takes its place in the total order (R56). -/
def State.issued (s : State) (t : Transaction) : State := { s with trace := s.trace ++ [t] }

/-- The status of a transaction: that of its first failing phase, `OK` if none failed (R46, R64, R150). The raw read has
no status (R47). -/
def Transaction.status : Transaction → Byte
  | .write _ _ st => st
  | .read _ _ p none => p
  | .read _ _ _ (some (st, _)) => st
  | .rawRead _ => Config.statusOk

/-- How one transaction ends: with success and a value, with the transport's failure status, or never. -/
inductive Tx (α : Type) where
  | ok (a : α) (s : State)
  | failed (e : BusErr) (s : State)
  | stuck

/-- `st <- MemWrite(addr, n, v)` (R45, R47): on success register `addr + k` holds `v[k]`; on failure a prefix of `v` may have
been stored, none in the address phase (R54), and the pointer is left open (R39). -/
def memWrite (addr : Byte) (v : List Byte) (s : State) : Tx Unit :=
  let r := s.reach
  match s.nextAnswer with
  | .done | .doneGiving _ =>
    .ok () ((({ r with regs := r.regs.writes addr.toNat v }).movePointer addr v.length).issued
      (.write addr v Config.statusOk))
  | .pointerFails e => .failed e (r.losePointer.issued (.write addr v e.code))
  | .dataFails e j =>
    .failed e ((({ r with regs := r.regs.writes addr.toNat (v.take j) }).losePointer).issued (.write addr v e.code))
  | .never => .stuck

/-- `(st, d) <- MemRead(addr, n)` (R46): the pointer phase, then the data phase; a failure changes no register (R54) and
leaves the pointer open (R39). -/
def memRead (addr : Byte) (n : Nat) (s : State) : Tx (List Byte) :=
  let r := s.reach
  let d := s.nextAnswer.bytes (r.regs.reads addr.toNat n)
  match s.nextAnswer with
  | .done | .doneGiving _ =>
    .ok d ((r.movePointer addr n).issued (.read addr n Config.statusOk (some (Config.statusOk, d))))
  | .pointerFails e => .failed e (r.losePointer.issued (.read addr n e.code none))
  | .dataFails e _ => .failed e (r.losePointer.issued (.read addr n Config.statusOk (some (e.code, []))))
  | .never => .stuck

/-- `x <- RawRead()` (R47): any byte, with no status, unrelated to the register image (log entry 12). -/
def rawRead (s : State) : Byte × State := (s.drawn, s.drew.issued (.rawRead s.drawn))

/-- Byte `k` of what a read gave. -/
def byteAt (d : List Byte) (k : Nat) : Byte := d.getD k 0x00

/-! ### Responses -/

/-- The seven result bytes from the ones an operation defines, in order; the others are `0x00` (R8, R63). -/
def results (l : List Byte) : Seven :=
  #v[byteAt l 0, byteAt l 1, byteAt l 2, byteAt l 3, byteAt l 4, byteAt l 5, byteAt l 6]

/-- The response of an operation that succeeded: status `OK` and its results (R63, R64, R150). -/
def State.respond (s : State) (l : List Byte) : State := { s with status := Config.statusOk, res := results l }

/-- `raise BusTransactionError(st)`, the one error: the transport's status verbatim, all results zero; nothing is saved, no
mode changes and there is nothing to return from (R150, R151, R152, R159). -/
def State.raiseBusTransactionError (s : State) (e : BusErr) : State :=
  { s with status := e.code, res := Seven.zero }

/-- The response to a command whose `op` is not in the table: status `0xFF`, results zero, nothing else (R67, R154). -/
def State.illegalCommand (s : State) : State := { s with status := Config.statusIllegal, res := Seven.zero }

/-- What follows a transaction: the rest of the operation on success; on a failure the operation ends at once with the
error, no later phase attempted (R150, R153); a transport that never completes leaves the machine stuck (R155). -/
def Tx.andThen {α : Type} (t : Tx α) (k : α → State → Host.Outcome State Fault Refusal) :
    Host.Outcome State Fault Refusal :=
  match t with
  | .ok a s => k a s
  | .failed e s => .next (s.raiseBusTransactionError e)
  | .stuck => .fault .transportNeverCompletes

/-- An operation that is one write transaction (R90, R100, R103, R110 to R112, R125, R130, R132, R134). -/
def writeOp (addr : Byte) (v : List Byte) (s : State) : Host.Outcome State Fault Refusal :=
  (memWrite addr v s).andThen fun _ s1 => .next (s1.respond [])

/-- An operation that is one read transaction, with the results it makes of the bytes (R93, R113, R114, R127, R131, R133,
R135, R139). -/
def readOp (addr : Byte) (n : Nat) (f : List Byte → List Byte) (s : State) : Host.Outcome State Fault Refusal :=
  (memRead addr n s).andThen fun d s1 => .next (s1.respond (f d))

/-- An operation without a transaction (R81, R83, R120, R121, R142 to R145). -/
def pureOp (l : List Byte) (s : State) : Host.Outcome State Fault Refusal := .next (s.respond l)

/-- The response word the host sees (R63). -/
def State.response (s : State) : Word64 := Response.toWord ⟨s.status, s.res⟩

/-! ### The bus frame -/

/-- `addr+W` and `addr+R`: the device address in bits 7:1 and the direction in bit 0 (R71; log entry 15). -/
def addressByte (read : Bool) : Byte := Config.devAddr.zeroExtend 8 <<< 1 ||| (if read then 0x01 else 0x00)

/-- The bytes on the wire of a write that succeeds (R71, R184). -/
def writeFrame (addr : Byte) (v : List Byte) : List Byte := addressByte false :: addr :: v

/-- The bytes on the wire of a read that succeeds (R71, R184). -/
def readFrame (addr : Byte) (d : List Byte) : List Byte := addressByte false :: addr :: addressByte true :: d

end Sys2Proof.Machine
end

