-- ==== Sys2Proof/Machine/Alarm.lean ====
section
/-! DEFINITION. The alarm operations (spec/42_alarm.md). -/

namespace Sys2Proof.Machine

/-- The five bytes `setAlarm` sends: clamped, BCD, bit 7 set on all but the day (R100, R101). -/
def alarmPayload (seconds minutes hours day weekday : Byte) : List Byte :=
  [bcdField maxSeconds seconds ||| alarmDisable, bcdField maxMinutes minutes ||| alarmDisable,
    bcdField maxHours hours ||| alarmDisable, bcdField maxDay day, bcdField maxWeekday weekday ||| alarmDisable]

/-- The five bytes `enableAlarm` sends with the clobber quirk: the disable bits alone (R103). -/
def clobberPayload (mask : Byte) : List Byte :=
  [disableBit mask 0, disableBit mask 1, disableBit mask 2, disableBit mask 3, disableBit mask 4]

/-- The five bytes `enableAlarm` sends without the quirk: the values read, with new disable bits (R104). -/
def preservingPayload (mask : Byte) (d : List Byte) : List Byte :=
  [withDisableBit mask 0 (byteAt d 0), withDisableBit mask 1 (byteAt d 1), withDisableBit mask 2 (byteAt d 2),
    withDisableBit mask 3 (byteAt d 3), withDisableBit mask 4 (byteAt d 4)]

/-- `setAlarm` (R100, R101). -/
def execSetAlarm (seconds minutes hours day weekday : Byte) (s : State) : Host.Outcome State Fault Refusal :=
  writeOp 0x0B (alarmPayload seconds minutes hours day weekday) s

/-- `enableAlarm`: with `ALARM_ENABLE_CLOBBER = 1` one write (R103), with 0 a read and then a write (R104). -/
def execEnableAlarm (mask : Byte) (s : State) : Host.Outcome State Fault Refusal :=
  if s.alarmEnableClobber then writeOp 0x0B (clobberPayload mask) s
  else (memRead 0x0B 5 s).andThen fun d s1 => writeOp 0x0B (preservingPayload mask d) s1

end Sys2Proof.Machine
end

