-- ==== Sys2Proof/Machine/Bcd.lean ====
section
/-! DEFINITION. The BCD codec as commands (spec/40_bcd.md). -/

namespace Sys2Proof.Machine

/-- `decToBcd(value)` (R81); above 99 the result is any byte, a free value, and the command still completes with `OK`
(R82). -/
def execDecToBcd (value : Byte) (s : State) : Host.Outcome State Fault Refusal :=
  if value.toNat ≤ 99 then pureOp [bcd value] s else pureOp [s.drawn] s.drew

/-- `bcdToDec(byte)`, the formula on every byte (R83, R84). -/
def execBcdToDec (b : Byte) (s : State) : Host.Outcome State Fault Refusal := pureOp [bcdToDec b] s

end Sys2Proof.Machine
end

