-- ==== Sys2Proof/Machine/Control.lean ====
section
/-! DEFINITION. The offset, control, RAM and oscillator-stop operations (spec/44_offset_control_ram.md). -/

namespace Sys2Proof.Machine

/-- `setOffset`: one byte at `0x02` (R125, R126). -/
def execSetOffset (mode offset : Byte) (s : State) : Host.Outcome State Fault Refusal :=
  writeOp 0x02 [packOffset mode offset] s

/-- `getOffset`: the mode and the 6-bit value, not sign-extended (R127, R128). -/
def execGetOffset (s : State) : Host.Outcome State Fault Refusal :=
  readOp 0x02 1 (fun d => [offsetMode (byteAt d 0), offsetValue (byteAt d 0)]) s

/-- `setControl1`: the byte as given, whatever its bits (R130, R162). -/
def execSetControl1 (byte : Byte) (s : State) : Host.Outcome State Fault Refusal := writeOp 0x00 [byte] s

/-- `getControl1` (R131). -/
def execGetControl1 (s : State) : Host.Outcome State Fault Refusal := readOp 0x00 1 (fun d => [byteAt d 0]) s

/-- `setControl2`: the byte as given, the flag positions too (R132, R182). -/
def execSetControl2 (byte : Byte) (s : State) : Host.Outcome State Fault Refusal := writeOp 0x01 [byte] s

/-- `getControl2` (R133). -/
def execGetControl2 (s : State) : Host.Outcome State Fault Refusal := readOp 0x01 1 (fun d => [byteAt d 0]) s

/-- `setRam` (R134). -/
def execSetRam (byte : Byte) (s : State) : Host.Outcome State Fault Refusal := writeOp 0x03 [byte] s

/-- `getRam` (R135). -/
def execGetRam (s : State) : Host.Outcome State Fault Refusal := readOp 0x03 1 (fun d => [byteAt d 0]) s

/-- `getOS`: bit 7 of Seconds (R139). -/
def execGetOS (s : State) : Host.Outcome State Fault Refusal := readOp 0x04 1 (fun d => [osFlag (byteAt d 0)]) s

/-- `clearOS`: with `CLEAROS_LITERAL = 0` Seconds is read and written back with OS cleared (R140); with 1 a pointer-only
write, a raw read that gives any byte, and a write of that byte with OS cleared (R141). -/
def execClearOS (s : State) : Host.Outcome State Fault Refusal :=
  if s.clearosLiteral then
    (memWrite 0x04 [] s).andThen fun _ s1 =>
      let x := rawRead s1
      writeOp 0x04 [clearOsFlag x.1] x.2
  else
    (memRead 0x04 1 s).andThen fun d s1 => writeOp 0x04 [clearOsFlag (byteAt d 0)] s1

/-- `packControl1` (R142). -/
def execPackControl1 (extTest stop swReset cie mode1224 capSel : Byte) (s : State) :
    Host.Outcome State Fault Refusal := pureOp [packC1 extTest stop swReset cie mode1224 capSel] s

/-- `unpackControl1` (R143). -/
def execUnpackControl1 (byte : Byte) (s : State) : Host.Outcome State Fault Refusal := pureOp (unpackC1 byte) s

/-- `packControl2` (R144). -/
def execPackControl2 (aie af mi hmi tf cof : Byte) (s : State) : Host.Outcome State Fault Refusal :=
  pureOp [packC2 aie af mi hmi tf cof] s

/-- `unpackControl2` (R145). -/
def execUnpackControl2 (byte : Byte) (s : State) : Host.Outcome State Fault Refusal := pureOp (unpackC2 byte) s

end Sys2Proof.Machine
end

