-- ==== Sys2Proof/Machine/Time.lean ====
section
/-! DEFINITION. The time operations (spec/41_time.md). -/

namespace Sys2Proof.Machine

/-- The seven bytes `setTime` sends, each field clamped and BCD (R90, R91). -/
def timePayload (seconds minutes hours day weekday month year : Byte) : List Byte :=
  [bcdField maxSeconds seconds, bcdField maxMinutes minutes, bcdField maxHours hours, bcdField maxDay day,
    bcdField maxWeekday weekday, bcdField maxMonth month, bcdField maxYear year]

/-- The seven results `getTime` makes of the bytes of `0x04..0x0A` (R93, R94); hours are read as 24-hour BCD whatever
Control1 says (R95). -/
def timeResults (d : List Byte) : List Byte :=
  [decField mask7 (byteAt d 0), decField mask7 (byteAt d 1), decField mask6 (byteAt d 2), decField mask6 (byteAt d 3),
    decField mask3 (byteAt d 4), decField mask5 (byteAt d 5), decField mask7 (byteAt d 6)]

/-- `setTime` (R90 to R92). -/
def execSetTime (seconds minutes hours day weekday month year : Byte) (s : State) : Host.Outcome State Fault Refusal :=
  writeOp 0x04 (timePayload seconds minutes hours day weekday month year) s

/-- `getTime` (R93 to R97). -/
def execGetTime (s : State) : Host.Outcome State Fault Refusal := readOp 0x04 7 timeResults s

end Sys2Proof.Machine
end

