-- ==== Sys2Proof/Machine/Timer.lean ====
section
/-! DEFINITION. The timer operations (spec/43_timer.md). -/

namespace Sys2Proof.Machine

/-- `setTimer`: value, then mode, in one transaction (R110). -/
def execSetTimer (value mode : Byte) (s : State) : Host.Outcome State Fault Refusal := writeOp 0x10 [value, mode] s

/-- `setTimerMode` (R111). -/
def execSetTimerMode (mode : Byte) (s : State) : Host.Outcome State Fault Refusal := writeOp 0x11 [mode] s

/-- `setTimerValue` (R112). -/
def execSetTimerValue (value : Byte) (s : State) : Host.Outcome State Fault Refusal := writeOp 0x10 [value] s

/-- `getTimerMode`: the register byte unmasked (R113). -/
def execGetTimerMode (s : State) : Host.Outcome State Fault Refusal := readOp 0x11 1 (fun d => [byteAt d 0]) s

/-- `getTimerValue`: the register byte, not decoded (R114). -/
def execGetTimerValue (s : State) : Host.Outcome State Fault Refusal := readOp 0x10 1 (fun d => [byteAt d 0]) s

/-- `packTimerMode` (R120). -/
def execPackTimerMode (tiTp tie te tcf : Byte) (s : State) : Host.Outcome State Fault Refusal :=
  pureOp [packTimer tiTp tie te tcf] s

/-- `unpackTimerMode` (R121). -/
def execUnpackTimerMode (mode : Byte) (s : State) : Host.Outcome State Fault Refusal := pureOp (unpackTimer mode) s

end Sys2Proof.Machine
end

