-- ==== Sys2Proof/Machine/Dispatch.lean ====
section
/-! DEFINITION. One arm per operation of spec/opcode_table.json. -/

namespace Sys2Proof.Machine

/-- What one operation does (R66). -/
def exec (i : Instr) (s : State) : Host.Outcome State Fault Refusal :=
  match i with
  -- 40_bcd.md
  | .decToBcd value => Sys2Proof.Machine.execDecToBcd value s
  | .bcdToDec bcd => Sys2Proof.Machine.execBcdToDec bcd s
  -- 41_time.md
  | .setTime seconds minutes hours day weekday month year => Sys2Proof.Machine.execSetTime seconds minutes hours day weekday month year s
  | .getTime => Sys2Proof.Machine.execGetTime s
  -- 42_alarm.md
  | .setAlarm seconds minutes hours day weekday => Sys2Proof.Machine.execSetAlarm seconds minutes hours day weekday s
  | .enableAlarm enableMask => Sys2Proof.Machine.execEnableAlarm enableMask s
  -- 43_timer.md
  | .setTimer value mode => Sys2Proof.Machine.execSetTimer value mode s
  | .setTimerMode mode => Sys2Proof.Machine.execSetTimerMode mode s
  | .setTimerValue value => Sys2Proof.Machine.execSetTimerValue value s
  | .getTimerMode => Sys2Proof.Machine.execGetTimerMode s
  | .getTimerValue => Sys2Proof.Machine.execGetTimerValue s
  | .packTimerMode tiTp tie te tcf => Sys2Proof.Machine.execPackTimerMode tiTp tie te tcf s
  | .unpackTimerMode mode => Sys2Proof.Machine.execUnpackTimerMode mode s
  -- 44_offset_control_ram.md
  | .setOffset mode offset => Sys2Proof.Machine.execSetOffset mode offset s
  | .getOffset => Sys2Proof.Machine.execGetOffset s
  | .setControl1 byte => Sys2Proof.Machine.execSetControl1 byte s
  | .getControl1 => Sys2Proof.Machine.execGetControl1 s
  | .setControl2 byte => Sys2Proof.Machine.execSetControl2 byte s
  | .getControl2 => Sys2Proof.Machine.execGetControl2 s
  | .setRam byte => Sys2Proof.Machine.execSetRam byte s
  | .getRam => Sys2Proof.Machine.execGetRam s
  | .getOS => Sys2Proof.Machine.execGetOS s
  | .clearOS => Sys2Proof.Machine.execClearOS s
  | .packControl1 extTest stop swReset cie mode1224 capSel => Sys2Proof.Machine.execPackControl1 extTest stop swReset cie mode1224 capSel s
  | .unpackControl1 byte => Sys2Proof.Machine.execUnpackControl1 byte s
  | .packControl2 aie af mi hmi tf cof => Sys2Proof.Machine.execPackControl2 aie af mi hmi tf cof s
  | .unpackControl2 byte => Sys2Proof.Machine.execUnpackControl2 byte s

end Sys2Proof.Machine
end

