-- ==== Sys2Proof/Machine/Step.lean ====
section
/-! DEFINITION. One step of the machine takes the next thing the host or the environment does (spec/00_scope.md R6,
spec/10_state.md R15, spec/60_exceptions.md R157). -/

namespace Sys2Proof.Machine

/-- The host's command is accepted: `op` and `arg` hold its bytes (R14, R61), the rest of the inbox waits (R56). -/
def State.accept (s : State) (w : Word64) (rest : List Input) : State :=
  { s with inbox := rest, cmd := Command.ofWord w }

/-- One step: with nothing to do the block waits for a command (R170); a command is checked first, an illegal one ends with
the response of R154, any other runs (R157); between commands the environment may move (R52, R55). -/
def step (s : State) : Host.Outcome State Fault Refusal :=
  match s.inbox with
  | [] => .next s
  | .command w :: rest =>
    match decode w with
    | .ok i => exec i (s.accept w rest)
    | .error _ => .next (s.accept w rest).illegalCommand
  | .idle moves :: rest => .next ({ s with inbox := rest }.environmentMoves moves)
  | .powerInterruption moves :: rest => .next ({ s with inbox := rest }.powerInterruption moves)
  | .setFailure f :: rest => .next { s with inbox := rest, failure := f }

/-- The command word whose bits are those of a table row's word, presented by the host before anything else: the very next
step runs it (R15; log entry 9). -/
def State.withFetchWord (s : State) (nbits w : Nat) : State :=
  { s with inbox := .command (tableWord nbits w) :: s.inbox }

end Sys2Proof.Machine
end

