-- ==== Sys2Proof/Safety.lean ====
section
/-! DEFINITION. The terms claims are stated in: which operations reach the bus and how (spec/10_state.md R34), what one
transaction leaves behind in each of its outcomes (spec/20_memory.md R45, R46, R54), and which states can go wrong
(spec/60_exceptions.md R155). -/

namespace Sys2Proof.Machine

/-! ### Which transactions an operation issues -/

/-- The kinds of transaction (R44, R47). -/
inductive TxKind where
  | write | read | raw
  deriving DecidableEq, Repr

/-- A transaction less its bytes and statuses: its kind, its first register, how many bytes. -/
structure TxShape where
  kind  : TxKind
  addr  : Nat
  count : Nat
  deriving DecidableEq, Repr

/-- The shape of a transaction; the raw read names no register (R47). -/
def Transaction.shape : Transaction → TxShape
  | .write a v _ => ⟨.write, a.toNat, v.length⟩
  | .read a n _ _ => ⟨.read, a.toNat, n⟩
  | .rawRead _ => ⟨.raw, 0x00, 1⟩

/-- The table of R34: the transactions of a successful operation, in order, for each setting of `ALARM_ENABLE_CLOBBER` and
`CLEAROS_LITERAL` (R34, R50, R66). -/
def busTable (i : Instr) (clobber literal : Bool) : List TxShape :=
  match i with
  | .decToBcd .. | .bcdToDec .. | .packTimerMode .. | .unpackTimerMode .. | .packControl1 .. | .unpackControl1 ..
  | .packControl2 .. | .unpackControl2 .. => []
  | .setTime .. => [⟨.write, 0x04, 7⟩]
  | .getTime => [⟨.read, 0x04, 7⟩]
  | .setAlarm .. => [⟨.write, 0x0B, 5⟩]
  | .enableAlarm .. => if clobber then [⟨.write, 0x0B, 5⟩] else [⟨.read, 0x0B, 5⟩, ⟨.write, 0x0B, 5⟩]
  | .setTimer .. => [⟨.write, 0x10, 2⟩]
  | .setTimerValue .. => [⟨.write, 0x10, 1⟩]
  | .getTimerValue => [⟨.read, 0x10, 1⟩]
  | .setTimerMode .. => [⟨.write, 0x11, 1⟩]
  | .getTimerMode => [⟨.read, 0x11, 1⟩]
  | .setOffset .. => [⟨.write, 0x02, 1⟩]
  | .getOffset => [⟨.read, 0x02, 1⟩]
  | .setControl1 .. => [⟨.write, 0x00, 1⟩]
  | .getControl1 => [⟨.read, 0x00, 1⟩]
  | .setControl2 .. => [⟨.write, 0x01, 1⟩]
  | .getControl2 => [⟨.read, 0x01, 1⟩]
  | .setRam .. => [⟨.write, 0x03, 1⟩]
  | .getRam => [⟨.read, 0x03, 1⟩]
  | .getOS => [⟨.read, 0x04, 1⟩]
  | .clearOS =>
    if literal then [⟨.write, 0x04, 0⟩, ⟨.raw, 0x00, 1⟩, ⟨.write, 0x04, 1⟩]
    else [⟨.read, 0x04, 1⟩, ⟨.write, 0x04, 1⟩]

/-- The 19 operations that issue a transaction; the other 8 are pure (R152). -/
def usesBus : Instr → Bool
  | .decToBcd .. | .bcdToDec .. | .packTimerMode .. | .unpackTimerMode .. | .packControl1 .. | .unpackControl1 ..
  | .packControl2 .. | .unpackControl2 .. => false
  | .setTime .. | .getTime | .setAlarm .. | .enableAlarm .. | .setTimer .. | .setTimerValue .. | .getTimerValue
  | .setTimerMode .. | .getTimerMode | .setOffset .. | .getOffset | .setControl1 .. | .getControl1 | .setControl2 ..
  | .getControl2 | .setRam .. | .getRam | .getOS | .clearOS => true

/-! ### What one transaction leaves behind -/

/-- The environment is the storing mock without failures, and no script overrides it (R53). -/
def State.storing (s : State) : Prop := s.script = [] ∧ s.failure = none

/-- What no transaction and no response touches: the command record, the configuration inputs, the inbox and the mock's
failure setting. -/
structure SameInputs (s t : State) : Prop where
  cmd : t.cmd = s.cmd
  alarmEnableClobber : t.alarmEnableClobber = s.alarmEnableClobber
  clearosLiteral : t.clearosLiteral = s.clearosLiteral
  inbox : t.inbox = s.inbox
  failure : t.failure = s.failure

/-- From `s` one `MemWrite(a, n, v)` succeeded and the response is `OK` without results: byte `k` of `v` is in register
`a + k`, every other register reads as it did when the transaction was issued (`s.reach`: the device's own changes before
it made), the pointer is past the last byte where the map goes on, and nothing else changed (R45, R63). -/
structure Wrote (s t : State) (a : Byte) (v : List Byte) : Prop where
  status : t.status = 0x00
  res : t.res = Seven.zero
  inside : ∀ (k : Nat) (h : k < v.length), t.regs.read (a.toNat + k) = v[k]
  outside : ∀ x, x < a.toNat ∨ a.toNat + v.length ≤ x → t.regs.read x = s.reach.regs.read x
  pointer : a.toNat + v.length ≤ 0x11 → t.ptr = a + BitVec.ofNat 8 v.length ∧ t.draws = s.draws
  trace : t.trace = s.trace ++ [.write a v 0x00]
  script : t.script = s.script.tail
  same : SameInputs s t

/-- From `s` one `MemWrite(a, n, v)` failed with status `st` after `j` bytes were stored: the response is `st` with zero
results, register `a + k` holds `v[k]` for `k < j`, and every other register reads as it did when the transaction was
issued (R54, R151, R159). No further transaction was issued (R153). -/
structure WriteFailed (s t : State) (a : Byte) (v : List Byte) (st : Byte) (j : Nat) : Prop where
  status : t.status = st
  res : t.res = Seven.zero
  stored : ∀ (k : Nat) (h : k < v.length), k < j → t.regs.read (a.toNat + k) = v[k]
  outside : ∀ x, x < a.toNat ∨ a.toNat + min j v.length ≤ x → t.regs.read x = s.reach.regs.read x
  trace : t.trace = s.trace ++ [.write a v st]
  script : t.script = s.script.tail
  same : SameInputs s t

/-- The bytes the environment gives to a read of `n` registers from `a` on, if it succeeds (R46). -/
def State.readGives (s : State) (a : Byte) (n : Nat) : List Byte := s.nextAnswer.bytes (s.reach.regs.reads a.toNat n)

/-- From `s` one `MemRead(a, n)` succeeded and the response is `OK` with results `rs`; no register changed (R46, R51). The
clause `pointer` is DEDUCED (log entry 3): the spec says of a write only that the pointer advances (R45). -/
structure ReadDone (s t : State) (a : Byte) (n : Nat) (rs : List Byte) : Prop where
  status : t.status = 0x00
  res : t.res = results rs
  regs : ∀ x, t.regs.read x = s.reach.regs.read x
  pointer : a.toNat + n ≤ 0x11 → t.ptr = a + BitVec.ofNat 8 n ∧ t.draws = s.draws
  trace : t.trace = s.trace ++ [.read a n 0x00 (some (0x00, s.readGives a n))]
  script : t.script = s.script.tail
  same : SameInputs s t

/-- From `s` one `MemRead(a, n)` failed with status `st`, in its pointer phase (the data phase not attempted) or in its data
phase: the response is `st` with zero results and no register changed (R46, R54, R151). No further transaction was issued
(R153). -/
structure ReadFailed (s t : State) (a : Byte) (n : Nat) (st : Byte) : Prop where
  status : t.status = st
  res : t.res = Seven.zero
  regs : ∀ x, t.regs.read x = s.reach.regs.read x
  trace : t.trace = s.trace ++ [.read a n st none] ∨ t.trace = s.trace ++ [.read a n 0x00 (some (st, []))]
  script : t.script = s.script.tail
  same : SameInputs s t

/-- The outcome `o` is that of one last `MemWrite(a, n, v)` from `s`: if it succeeds the operation completes; if it fails
the operation ends with the error; if it never completes, neither does the operation (R150, R151, R153, R155). -/
def EndsInWrite (o : Host.Outcome State Fault Refusal) (s : State) (a : Byte) (v : List Byte) : Prop :=
  (s.nextAnswer.succeeds = true → ∃ t, o = .next t ∧ Wrote s t a v) ∧
  (∀ e, s.nextAnswer.failure = some e → ∃ t, o = .next t ∧ WriteFailed s t a v e.code s.nextAnswer.stored) ∧
  (s.nextAnswer = .never → o = .fault .transportNeverCompletes)

/-- From `s` the operation `i` is one `MemWrite(a, n, v)`. -/
def WritesOnce (i : Instr) (a : Byte) (v : List Byte) (s : State) : Prop := EndsInWrite (exec i s) s a v

/-- From `s` the operation `i` is one `MemRead(a, n)` whose results are `f` of the bytes read. -/
def ReadsOnce (i : Instr) (a : Byte) (n : Nat) (f : List Byte → List Byte) (s : State) : Prop :=
  (s.nextAnswer.succeeds = true → ∃ t, exec i s = .next t ∧ ReadDone s t a n (f (s.readGives a n))) ∧
  (∀ e, s.nextAnswer.failure = some e → ∃ t, exec i s = .next t ∧ ReadFailed s t a n e.code) ∧
  (s.nextAnswer = .never → exec i s = .fault .transportNeverCompletes)

/-- The state after a write transaction that succeeds (R45). -/
def State.afterWrite (s : State) (a : Byte) (v : List Byte) : State :=
  (({ s.reach with regs := s.reach.regs.writes a.toNat v }).movePointer a v.length).issued (.write a v 0x00)

/-- The state after a write transaction that fails with `j` bytes stored (R54). -/
def State.afterFailedWrite (s : State) (a : Byte) (v : List Byte) (e : BusErr) (j : Nat) : State :=
  ({ s.reach with regs := s.reach.regs.writes a.toNat (v.take j) }).losePointer.issued (.write a v e.code)

/-- The state after a read transaction that succeeds (R46). -/
def State.afterRead (s : State) (a : Byte) (n : Nat) : State :=
  (s.reach.movePointer a n).issued (.read a n 0x00 (some (0x00, s.readGives a n)))

/-! ### Safe states -/

/-- The transport completes every phase it is going to be asked for: the liveness premise the spec allows a claim to make
(R155, R184). -/
def State.transportCompletes (s : State) : Prop := ∀ ev ∈ s.script, ev.answer ≠ .never

/-- A response with a failure status has zero results (R151). -/
def State.failureIsZero (s : State) : Prop := s.status ≠ 0x00 → s.res = Seven.zero

/-- Two states that agree on the configuration inputs and on the whole environment with the free values to come: more than
R13 lets an operation depend on (the answers to its own transactions). The counter `draws` is the model's (log entry 4). -/
structure SameEnvironment (s s' : State) : Prop where
  alarmEnableClobber : s'.alarmEnableClobber = s.alarmEnableClobber
  clearosLiteral : s'.clearosLiteral = s.clearosLiteral
  regs : s'.regs = s.regs
  failure : s'.failure = s.failure
  script : s'.script = s.script
  draws : s'.draws = s.draws

end Sys2Proof.Machine
end

