-- ==== Sys2Proof/Certificates/Slice0/Obligations.lean ====
section
/-! DEFINITION. The statements about the model, in the spec's order. `s.nextAnswer` is how the environment answers the next
transaction, `s.reach` the state as that transaction finds it (the device's own changes before it made); with the storing
mock (`s.storing`) it is `s` itself. The shapes of the outcomes (`WritesOnce`, `ReadsOnce`, ...) are in Sys2Proof/Safety.lean. -/

open Sys2Proof Sys2Proof.Machine

/-! ### Encoding (30_encoding.md) -/

/-- R61, R63: the command word is the opcode byte in bits 63:56, then `arg[0]` in 55:48 down to `arg[6]` in 7:0, and word
and record determine each other; the response word has the same layout, `status` first. -/
def Obligations.CommandAndResponseLayout : Prop :=
  (∀ c : Command, Command.ofWord c.toWord = c) ∧ (∀ w : Word64, (Command.ofWord w).toWord = w) ∧
  (∀ c : Command, c.toWord.extractLsb' 56 8 = c.op ∧
    ∀ (k : Nat) (h : k < 7), c.toWord.extractLsb' (48 - 8 * k) 8 = c.arg[k]) ∧
  (∀ s : State, s.response.extractLsb' 56 8 = s.status ∧
    ∀ (k : Nat) (h : k < 7), s.response.extractLsb' (48 - 8 * k) 8 = s.res[k])

/-- R62: the operation is selected by the opcode byte alone: the 27 values select the operations, every other is illegal,
and `match = op << 56` under the mask `0xFF00000000000000` for every operation. -/
def Obligations.OpcodeAloneSelectsTheOperation : Prop :=
  opcodes.length = 27 ∧ opcodes.Nodup ∧
  (∀ w : Word64, (∃ i, decode w = .ok i) ↔ w.extractLsb' 56 8 ∈ opcodes) ∧
  (∀ w i, decode w = .ok i → i.opcode = w.extractLsb' 56 8 ∧
    w &&& 0xFF00000000000000 = i.opcode.zeroExtend 64 <<< 56)

/-- Decoding the word of an instruction gives it back, every operand at every value (R61, R62, R65, R66). -/
def Obligations.DecodeOfEncodeIsTheInstruction : Prop := ∀ i : Instr, decode (encode i) = .ok i

/-- The other direction: the word of a decoded instruction is the word it came from with the bits the operation ignores
cleared, and those ignored bits never matter (R65, R72). -/
def Obligations.EncodeOfDecodeKeepsTheUsedBits : Prop :=
  ∀ w i, decode w = .ok i → encode i = w &&& i.usedBits ∧
    ∀ w' : Word64, w' &&& i.usedBits = w &&& i.usedBits → decode w' = .ok i

/-- R74: the worked encodings of the spec, commands and responses. -/
def Obligations.WorkedEncodings : Prop :=
  encode (.setTime 30 59 23 31 6 12 26) = 0x101E3B171F060C1A ∧
  decode 0x101E3B171F060C1A = .ok (.setTime 30 59 23 31 6 12 26) ∧
  encode .getTime = 0x1100000000000000 ∧ decode 0x1100000000000000 = .ok .getTime ∧
  encode (.enableAlarm 0b00000001) = 0x2101000000000000 ∧
  decode 0x2101000000000000 = .ok (.enableAlarm 0b00000001) ∧
  encode (.setOffset 1 (BitVec.ofInt 8 (-10))) = 0x4001F60000000000 ∧
  decode 0x4001F60000000000 = .ok (.setOffset 1 (BitVec.ofInt 8 (-10))) ∧
  (∀ s : State, s.nextAnswer = .doneGiving [0x30, 0x59, 0x23, 0x31, 0x06, 0x12, 0x26] →
    ∃ t, exec .getTime s = .next t ∧ t.response = 0x001E3B171F060C1A) ∧
  (∀ (s : State) (w : Word64) rest, s.inbox = .command w :: rest → w.extractLsb' 56 8 = 0x7E#8 →
    ∃ t, step s = .next t ∧ t.response = 0xFF00000000000000)

/-- R72: the written form of every instruction assembles to it, and a negative `offset` stands for its 8-bit
two's-complement byte. -/
def Obligations.WrittenFormAssembles : Prop :=
  (∀ i : Instr, assemble i.call = some i) ∧
  ∀ (m : Byte) (n : Int), -128 ≤ n → n < 0 →
    assemble ⟨"setOffset", [.num m.toNat, .num n]⟩ = some (.setOffset m (BitVec.ofInt 8 n))

/-! ### The step (00_scope.md R6, 10_state.md, 60_exceptions.md) -/

/-- A step runs the decoded command: when the host's next input is a command word that decodes to an instruction, the step
is `exec` of it at the state with the word's bytes in `op` and `arg` and the input taken (R14, R15, R157). -/
def Obligations.StepRunsTheDecodedCommand : Prop :=
  ∀ (s : State) (w : Word64) rest i, s.inbox = .command w :: rest → decode w = .ok i →
    step s = exec i { s with inbox := rest, cmd := Command.ofWord w }

/-- R154, R67: a command whose opcode is none of the 27 answers status `0xFF` with zero results; no transaction, no change
to the device, the environment or the configuration. -/
def Obligations.IllegalCommandChangesNothing : Prop :=
  ∀ (s : State) (w : Word64) rest, s.inbox = .command w :: rest → w.extractLsb' 56 8 ∉ opcodes →
    step s = .next { s with
      inbox := rest, cmd := Command.ofWord w, status := 0xFF#8, res := #v[0, 0, 0, 0, 0, 0, 0] }

/-- R37: a power interruption of the device sets bit 7 of Seconds and, with no other change by the environment, leaves
every other register and the other seven bits alone; with other changes it sets bit 7 over them. -/
def Obligations.PowerInterruptionSetsOS : Prop :=
  (∀ (s : State) rest, s.inbox = .powerInterruption [] :: rest →
    ∃ t, step s = .next t ∧ t.regs.read 0x04 = s.regs.read 0x04 ||| 0x80 ∧
      (∀ x, x ≠ 0x04 → t.regs.read x = s.regs.read x) ∧ t.status = s.status ∧ t.res = s.res ∧ t.trace = s.trace ∧
      t.cmd = s.cmd ∧ t.alarmEnableClobber = s.alarmEnableClobber ∧ t.clearosLiteral = s.clearosLiteral ∧
      t.failure = s.failure ∧ t.script = s.script ∧ t.inbox = rest) ∧
  (∀ (s : State) moves rest, s.inbox = .powerInterruption moves :: rest →
    ∃ t, step s = .next t ∧ osFlag (t.regs.read 0x04) = 1 ∧
      ∀ x, x ≠ 0x04 → t.regs.read x = (s.regs.applyMoves moves).read x)

/-- Between commands: with nothing to do the block waits and nothing changes (R170); the environment may change registers
by itself, and then nothing but those registers changes (R52, R55). That the device's register pointer does not change with
them is the model's choice (log entry 20): R52 lets `idle` give any state of the environment. -/
def Obligations.BetweenCommandsOnlyTheEnvironmentMoves : Prop :=
  (∀ s : State, s.inbox = [] → step s = .next s) ∧
  (∀ (s : State) moves rest, s.inbox = .idle moves :: rest →
    ∃ t, step s = .next t ∧ (∀ x, (∀ v ∈ moves, v.reg.val ≠ x) → t.regs.read x = s.regs.read x) ∧
      t = { s with inbox := rest, regs := t.regs }) ∧
  (∀ (s : State) (r : Fin 18) (b : Byte) rest, s.inbox = .idle [⟨r, b⟩] :: rest →
    ∃ t, step s = .next t ∧ t.regs.read r.val = b)

/-- R36: the defaults of the two configuration inputs. -/
def Obligations.ConfigurationDefaults : Prop :=
  State.reset.alarmEnableClobber = true ∧ State.reset.clearosLiteral = false

/-- R17: the configuration inputs are constant while the block runs, and only `enableAlarm` (R103, R104) and `clearOS` (R140,
R141) read them, each its own. -/
def Obligations.ConfigurationInputsNeverChange : Prop :=
  (∀ s t : State, step s = .next t →
    t.alarmEnableClobber = s.alarmEnableClobber ∧ t.clearosLiteral = s.clearosLiteral) ∧
  (∀ (i : Instr) (c : Bool) (s t : State), (∀ m, i ≠ .enableAlarm m) → exec i s = .next t →
    exec i { s with alarmEnableClobber := c } = .next { t with alarmEnableClobber := c }) ∧
  (∀ (i : Instr) (l : Bool) (s t : State), i ≠ .clearOS → exec i s = .next t →
    exec i { s with clearosLiteral := l } = .next { t with clearosLiteral := l })

/-- R38: the initial register image is the parameter `INIT_IMAGE`: for every 18 bytes there is a power-up state whose
registers `0x00..0x11` hold them, with the configuration inputs as wired. That its list has the canonical form is the
model's own clause (log entry 1), which no rule states. -/
def Obligations.PowerUpHoldsTheGivenImage : Prop :=
  ∀ (image : List Byte) (c l : Bool), image.length = 18 →
    (State.powerUp image c l).regs.image = image ∧ (State.powerUp image c l).regs.wf = true ∧
    (State.powerUp image c l).alarmEnableClobber = c ∧ (State.powerUp image c l).clearosLiteral = l

/-! ### Registers and transactions (20_memory.md) -/

/-- The canonical form is one: register images that read alike are equal lists (R19, R41; the form is the model's). -/
def Obligations.CanonicalImagesThatReadAlikeAreEqual : Prop :=
  ∀ m m' : Memory, m.wf = true → m'.wf = true → (∀ x, m.read x = m'.read x) → m = m'

/-- A successful `MemRead(addr, n)` answered from the register image gives `n` bytes, byte `k` that of register `addr + k`,
and changes no register (R46, R48, R51). -/
def Obligations.MemReadGivesTheRegisters : Prop :=
  ∀ (a : Byte) (n : Nat) (s : State), s.nextAnswer = .done →
    ∃ d t, memRead a n s = .ok d t ∧ d.length = n ∧
      (∀ (k : Nat) (h : k < d.length), d[k] = s.reach.regs.read (a.toNat + k)) ∧ t.regs = s.reach.regs

/-- Every transaction the block ever issued keeps its place: a step only adds transactions after the earlier ones, at most
three of them (R56). -/
def Obligations.TransactionsAreTotallyOrdered : Prop :=
  ∀ s t : State, step s = .next t → ∃ new, t.trace = s.trace ++ new ∧ new.length ≤ 3

/-! ### BCD codec and clamp (40_bcd.md) -/

/-- R81: `decToBcd(value)` for `value <= 99` is `(value/10)<<4 | (value%10)`, status `OK`, and nothing else changes. -/
def Obligations.DecToBcdPacksTheDigits : Prop :=
  ∀ v : Byte, encode (.decToBcd v) = wordOf 0x01 #v[v, 0, 0, 0, 0, 0, 0] ∧
    (v.toNat ≤ 99 → ∀ s : State, ∃ r : Byte,
      exec (.decToBcd v) s = .next { s with status := 0x00#8, res := #v[r, 0, 0, 0, 0, 0, 0] } ∧
      r.toNat = (v.toNat / 10) * 16 + v.toNat % 10 ∧ r.toNat / 16 ≤ 9 ∧ r.toNat % 16 ≤ 9 ∧
      (r.toNat ≥ 0x80 ↔ v.toNat ≥ 80))

/-- R82: above 99 the command completes with `OK`, issues no transaction, and its result is a free value; the next draw is
another one. No other use of `decToBcd` is above 99. -/
def Obligations.DecToBcdAbove99IsAnyByte : Prop :=
  (∀ (v : Byte) (s : State), v.toNat > 99 →
    exec (.decToBcd v) s = .next { s with
      status := 0x00#8, res := #v[Config.draw8 s.draws, 0, 0, 0, 0, 0, 0], draws := s.draws + 1 }) ∧
  (∀ x : Byte, ∀ m ∈ [maxSeconds, maxMinutes, maxHours, maxDay, maxWeekday, maxMonth, maxYear],
    (clamp x m).toNat ≤ 99)

/-- R83, R84: `bcdToDec` is `(byte>>4)*10 + (byte&0x0F)` on all 256 bytes, status `OK`, and nothing else changes. -/
def Obligations.BcdToDecOnEveryByte : Prop :=
  ∀ b : Byte, encode (.bcdToDec b) = wordOf 0x02 #v[b, 0, 0, 0, 0, 0, 0] ∧
    ∀ s : State, ∃ r : Byte,
      exec (.bcdToDec b) s = .next { s with status := 0x00#8, res := #v[r, 0, 0, 0, 0, 0, 0] } ∧
      r.toNat = (b.toNat / 16) * 10 + b.toNat % 16 ∧ r.toNat ≤ 165

/-- R86: `bcdToDec(decToBcd(x)) = x` for 0 to 99; the converse holds for the valid BCD bytes and for no other byte whose
decoded value is at most 99. -/
def Obligations.BcdRoundTrip : Prop :=
  (∀ x : Byte, x.toNat ≤ 99 → bcdToDec (bcd x) = x) ∧
  (∀ b : Byte, (bcdToDec b).toNat ≤ 99 →
    (bcd (bcdToDec b) = b ↔ b.toNat / 16 ≤ 9 ∧ b.toNat % 16 ≤ 9))

/-- R85, R88: the clamp gives 0 above the maximum and the value itself up to it; a clamped BCD field is at most the
maximum's BCD byte, has both nibbles at most 9, and has bit 7 clear but for years 80 to 99. -/
def Obligations.ClampedFieldsAreBcd : Prop :=
  (maxSeconds, maxMinutes, maxHours, maxDay, maxWeekday, maxMonth, maxYear) = (59, 59, 23, 31, 6, 12, 99) ∧
  (∀ (x : Byte) (m : Nat), clamp x m = if x.toNat > m then 0x00#8 else x) ∧
  ∀ x : Byte, ∀ m ∈ [maxSeconds, maxMinutes, maxHours, maxDay, maxWeekday, maxMonth, maxYear],
    (bcdField m x).toNat ≤ m / 10 * 16 + m % 10 ∧
    (bcdField m x).toNat / 16 ≤ 9 ∧ (bcdField m x).toNat % 16 ≤ 9 ∧
    ((bcdField m x).toNat ≥ 0x80 ↔ m = 99 ∧ 80 ≤ x.toNat ∧ x.toNat ≤ 99)

/-! ### Time (41_time.md) -/

/-- R90, R92: `setTime` is one write of seven bytes at `0x04`, each field clamped and BCD, whatever the operands. -/
def Obligations.SetTimeWritesTheTimeRegisters : Prop :=
  ∀ sec min hr day wd mon yr : Byte,
    encode (.setTime sec min hr day wd mon yr) = wordOf 0x10 #v[sec, min, hr, day, wd, mon, yr] ∧
    ∀ s : State, WritesOnce (.setTime sec min hr day wd mon yr) 0x04
      [bcd (clamp sec 59), bcd (clamp min 59), bcd (clamp hr 23), bcd (clamp day 31), bcd (clamp wd 6),
        bcd (clamp mon 12), bcd (clamp yr 99)] s

/-- R93, R97: `getTime` is one read of seven bytes at `0x04`, each masked and decoded; a failed read gives zeros. That the
register pointer then stands at `0x0B` after a successful read is the model's (DEDUCED, log entry 3); no rule says it. -/
def Obligations.GetTimeDecodesTheTimeRegisters : Prop :=
  encode .getTime = 0x1100000000000000#64 ∧
  ∀ s : State, ReadsOnce .getTime 0x04 7 (fun b =>
    [bcdToDec (byteAt b 0 &&& 0x7F), bcdToDec (byteAt b 1 &&& 0x7F), bcdToDec (byteAt b 2 &&& 0x3F),
      bcdToDec (byteAt b 3 &&& 0x3F), bcdToDec (byteAt b 4 &&& 0x07), bcdToDec (byteAt b 5 &&& 0x1F),
      bcdToDec (byteAt b 6 &&& 0x7F)]) s

/-- Whatever bytes the device gives, the results of `getTime` stay within the bounds of R94, and the OS flag never reaches
the seconds result. -/
def Obligations.GetTimeResultsAreBounded : Prop :=
  ∀ s : State, s.nextAnswer.succeeds = true →
    ∃ t, exec .getTime s = .next t ∧ t.res[0].toNat ≤ 85 ∧ t.res[1].toNat ≤ 85 ∧ t.res[2].toNat ≤ 45 ∧
      t.res[3].toNat ≤ 45 ∧ t.res[4].toNat ≤ 7 ∧ t.res[5].toNat ≤ 25 ∧ t.res[6].toNat ≤ 85 ∧
      t.res[0] = bcdToDec (byteAt (s.readGives 0x04 7) 0 &&& 0x7F)

/-- R96: against the storing mock, `setTime` then `getTime` gives the fields back; years 80 to 99 read back as the year
minus 80. -/
def Obligations.SetTimeGetTimeRoundTrip : Prop :=
  ∀ (sec min hr day wd mon yr : Byte) (s : State), s.storing →
    sec.toNat ≤ 59 → min.toNat ≤ 59 → hr.toNat ≤ 23 → day.toNat ≤ 31 → wd.toNat ≤ 6 → mon.toNat ≤ 12 →
    yr.toNat ≤ 99 →
    ∃ t u, exec (.setTime sec min hr day wd mon yr) s = .next t ∧ exec .getTime t = .next u ∧ u.status = 0x00 ∧
      u.res = #v[sec, min, hr, day, wd, mon, if yr.toNat ≤ 79 then yr else yr - 80]

/-- A successful `setTime` always clears the OS flag and touches no alarm, timer, control, offset or RAM register; an
operand above its maximum is stored as 0 (R91). -/
def Obligations.SetTimeClearsOSAndClamps : Prop :=
  ∀ (sec min hr day wd mon yr : Byte) (s : State), s.nextAnswer.succeeds = true →
    ∃ t, exec (.setTime sec min hr day wd mon yr) s = .next t ∧ osFlag (t.regs.read 0x04) = 0 ∧
      (∀ x, x ≤ 0x03 ∨ 0x0B ≤ x → t.regs.read x = s.reach.regs.read x) ∧
      (sec.toNat > 59 → t.regs.read 0x04 = 0) ∧ (min.toNat > 59 → t.regs.read 0x05 = 0) ∧
      (hr.toNat > 23 → t.regs.read 0x06 = 0) ∧ (day.toNat > 31 → t.regs.read 0x07 = 0) ∧
      (wd.toNat > 6 → t.regs.read 0x08 = 0) ∧ (mon.toNat > 12 → t.regs.read 0x09 = 0) ∧
      (yr.toNat > 99 → t.regs.read 0x0A = 0)

/-- The time operations never read Control1, its 12/24-hour bit included: whatever byte register `0x00` holds, `setTime`
and `getTime` give the same responses and the same time registers (R95). -/
def Obligations.TimeIgnoresTheHourModeBit : Prop :=
  ∀ (s : State) (c sec min hr day wd mon yr : Byte), s.storing →
    (∃ t t', exec .getTime s = .next t ∧ exec .getTime { s with regs := s.regs.write 0x00 c } = .next t' ∧
      t'.status = t.status ∧ t'.res = t.res) ∧
    (∃ t t', exec (.setTime sec min hr day wd mon yr) s = .next t ∧
      exec (.setTime sec min hr day wd mon yr) { s with regs := s.regs.write 0x00 c } = .next t' ∧
      t'.status = t.status ∧ t'.res = t.res ∧ ∀ x, x ≠ 0x00 → t'.regs.read x = t.regs.read x)

/-! ### Alarm (42_alarm.md) -/

/-- R100: `setAlarm` is one write of five bytes at `0x0B`, clamped and BCD, bit 7 set on all but the day. -/
def Obligations.SetAlarmWritesTheAlarmRegisters : Prop :=
  ∀ sec min hr day wd : Byte,
    encode (.setAlarm sec min hr day wd) = wordOf 0x20 #v[sec, min, hr, day, wd, 0, 0] ∧
    ∀ s : State, WritesOnce (.setAlarm sec min hr day wd) 0x0B
      [bcd (clamp sec 59) ||| 0x80, bcd (clamp min 59) ||| 0x80, bcd (clamp hr 23) ||| 0x80, bcd (clamp day 31),
        bcd (clamp wd 6) ||| 0x80] s

/-- R102, R103: with `ALARM_ENABLE_CLOBBER = 1`, `enableAlarm` is one write of five bytes at `0x0B`: `0x00` where the
mask bit is 1, `0x80` where it is 0. -/
def Obligations.EnableAlarmClobbersTheValues : Prop :=
  ∀ m : Byte, encode (.enableAlarm m) = wordOf 0x21 #v[m, 0, 0, 0, 0, 0, 0] ∧
    ∀ s : State, s.alarmEnableClobber = true → WritesOnce (.enableAlarm m) 0x0B
      [if m.getLsbD 0 then 0x00 else 0x80, if m.getLsbD 1 then 0x00 else 0x80, if m.getLsbD 2 then 0x00 else 0x80,
        if m.getLsbD 3 then 0x00 else 0x80, if m.getLsbD 4 then 0x00 else 0x80] s

/-- R104: with `ALARM_ENABLE_CLOBBER = 0`, `enableAlarm` reads the five registers and, if that succeeds, writes them back
with bits 6:0 as read and bit 7 from the mask; a failed read ends it with nothing written. -/
def Obligations.EnableAlarmWithoutTheQuirkKeepsTheValues : Prop :=
  ∀ (m : Byte) (s : State), s.alarmEnableClobber = false →
    (s.nextAnswer.succeeds = true →
      EndsInWrite (exec (.enableAlarm m) s) (s.afterRead 0x0B 5) 0x0B
        ((List.range 5).map fun i => (byteAt (s.readGives 0x0B 5) i &&& 0x7F) ||| ((~~~m >>> i) &&& 1) <<< 7)) ∧
    (∀ e, s.nextAnswer.failure = some e →
      ∃ t, exec (.enableAlarm m) s = .next t ∧ ReadFailed s t 0x0B 5 e.code) ∧
    (s.nextAnswer = .never → exec (.enableAlarm m) s = .fault .transportNeverCompletes)

/-- Against the storing mock and without the quirk, `enableAlarm` completes with the values of the five alarm registers
kept, bit 7 of each the inverse of its mask bit, and every other register as before (R104). -/
def Obligations.EnableAlarmCompletesWithoutTheQuirk : Prop :=
  ∀ (m : Byte) (s : State), s.storing → s.alarmEnableClobber = false →
    ∃ t, exec (.enableAlarm m) s = .next t ∧ t.status = 0x00 ∧ t.res = Seven.zero ∧
      (∀ i, i < 5 → t.regs.read (0x0B + i) &&& 0x7F = s.regs.read (0x0B + i) &&& 0x7F ∧
        (t.regs.read (0x0B + i)).getLsbD 7 = !m.getLsbD i) ∧
      (∀ x, x < 0x0B ∨ 0x10 ≤ x → t.regs.read x = s.regs.read x) ∧ SameInputs s t

/-- With the quirk no order of `setAlarm` and `enableAlarm` leaves both the values and a chosen pattern: after
`enableAlarm` every value is 0, after `setAlarm` the day is enabled and the other four are disabled, whatever was there
(R105, R176, R178). -/
def Obligations.QuirkLeavesNoOrderThatWorks : Prop :=
  ∀ (m sec min hr day wd : Byte) (s : State), s.alarmEnableClobber = true → s.nextAnswer.succeeds = true →
    (∃ t, exec (.enableAlarm m) s = .next t ∧ ∀ i, i < 5 → t.regs.read (0x0B + i) &&& 0x7F = 0) ∧
    (∃ t, exec (.setAlarm sec min hr day wd) s = .next t ∧
      ∀ i, i < 5 → (t.regs.read (0x0B + i)).getLsbD 7 = decide (i ≠ 3))

/-! ### Timer (43_timer.md) -/

/-- R110, R111, R112: the timer writes move their bytes unchanged, value before mode. -/
def Obligations.TimerWritesMoveBytesUnchanged : Prop :=
  ∀ v m : Byte,
    encode (.setTimer v m) = wordOf 0x30 #v[v, m, 0, 0, 0, 0, 0] ∧
    encode (.setTimerMode m) = wordOf 0x31 #v[m, 0, 0, 0, 0, 0, 0] ∧
    encode (.setTimerValue v) = wordOf 0x32 #v[v, 0, 0, 0, 0, 0, 0] ∧
    ∀ s : State, WritesOnce (.setTimer v m) 0x10 [v, m] s ∧ WritesOnce (.setTimerMode m) 0x11 [m] s ∧
      WritesOnce (.setTimerValue v) 0x10 [v] s

/-- R113, R114: the timer reads return the register byte unmasked and not decoded. That the register pointer stands at `0x11`
after a successful `getTimerValue` is the model's (DEDUCED, log entry 3), as is that nothing is claimed of it after
`getTimerMode`, where it would pass the end of the map; no rule says it. -/
def Obligations.TimerReadsReturnTheByte : Prop :=
  encode .getTimerMode = 0x3300000000000000#64 ∧ encode .getTimerValue = 0x3400000000000000#64 ∧
  ∀ s : State, ReadsOnce .getTimerMode 0x11 1 (fun b => [byteAt b 0]) s ∧
    ReadsOnce .getTimerValue 0x10 1 (fun b => [byteAt b 0]) s

/-- `setTimer(v, m)` and `setTimerValue(v); setTimerMode(m)` leave the same image in the storing mock, by one transaction
against two (R115). -/
def Obligations.SetTimerIsValueThenMode : Prop :=
  ∀ (v m : Byte) (s : State), s.storing →
    ∃ t t1 t2, exec (.setTimer v m) s = .next t ∧ exec (.setTimerValue v) s = .next t1 ∧
      exec (.setTimerMode m) t1 = .next t2 ∧ t.regs = t2.regs ∧ t.status = t2.status ∧ t.res = t2.res ∧
      t.trace.length = s.trace.length + 1 ∧ t2.trace.length = s.trace.length + 2

/-- R120, R121: the Timer mode byte from its fields and back; nothing but the response changes. -/
def Obligations.TimerModeFields : Prop :=
  (∀ (p i e f : Byte) (s : State),
    encode (.packTimerMode p i e f) = wordOf 0x35 #v[p, i, e, f, 0, 0, 0] ∧
    exec (.packTimerMode p i e f) s = .next { s with
      status := 0x00#8
      res := #v[(f &&& 3) <<< 3 ||| (e &&& 1) <<< 2 ||| (i &&& 1) <<< 1 ||| (p &&& 1), 0, 0, 0, 0, 0, 0] }) ∧
  (∀ (b : Byte) (s : State),
    encode (.unpackTimerMode b) = wordOf 0x36 #v[b, 0, 0, 0, 0, 0, 0] ∧
    exec (.unpackTimerMode b) s = .next { s with
      status := 0x00#8
      res := #v[b &&& 1, (b >>> 1) &&& 1, (b >>> 2) &&& 1, (b >>> 3) &&& 3, 0, 0, 0] })

/-- R122: packing and then unpacking a Timer mode byte reduces each field to its width, and unpacking and then packing
keeps bits 4:0. -/
def Obligations.TimerModePackUnpackLaws : Prop :=
  (∀ (a b c d : Byte) (s : State), ∃ t u,
    exec (.packTimerMode a b c d) s = .next t ∧ exec (.unpackTimerMode t.res[0]) t = .next u ∧
    u.res = #v[a &&& 1, b &&& 1, c &&& 1, d &&& 3, 0, 0, 0] ∧ u.trace = s.trace) ∧
  (∀ (m : Byte) (s : State), ∃ t u,
    exec (.unpackTimerMode m) s = .next t ∧
    exec (.packTimerMode t.res[0] t.res[1] t.res[2] t.res[3]) t = .next u ∧
    u.res = #v[m &&& 0x1F, 0, 0, 0, 0, 0, 0] ∧ u.trace = s.trace)

/-! ### Offset, control, RAM, oscillator stop (44_offset_control_ram.md) -/

/-- R125: `setOffset` is one write of one byte at `0x02`: the mode bit in bit 7, the low 6 bits of the value, bit 6 zero. -/
def Obligations.SetOffsetWritesOneByte : Prop :=
  ∀ m o : Byte, encode (.setOffset m o) = wordOf 0x40 #v[m, o, 0, 0, 0, 0, 0] ∧
    ∀ s : State, WritesOnce (.setOffset m o) 0x02 [(m &&& 1) <<< 7 ||| (o &&& 0x3F)] s

/-- R127: `getOffset` is one read of one byte at `0x02`, split into bit 7 and bits 5:0, not sign-extended. That the register
pointer stands at `0x03` after a successful read is the model's (DEDUCED, log entry 3); no rule says it. -/
def Obligations.GetOffsetSplitsTheByte : Prop :=
  encode .getOffset = 0x4100000000000000#64 ∧
  ∀ s : State, ReadsOnce .getOffset 0x02 1 (fun b => [byteAt b 0 >>> 7, byteAt b 0 &&& 0x3F]) s

/-- Against the storing mock `setOffset(m, o)` then `getOffset()` returns `(m & 1, o & 0x3F)`; a caller that sign-extends
the 6-bit field gets the offset back exactly when it lies in -32 to +31 (R126, R128). -/
def Obligations.OffsetRoundTripKeepsSixBits : Prop :=
  ∀ (m : Byte) (n : Int) (s : State), s.storing → -128 ≤ n → n ≤ 127 →
    ∃ t u, exec (.setOffset m (BitVec.ofInt 8 n)) s = .next t ∧ exec .getOffset t = .next u ∧
      u.res = #v[m &&& 1, BitVec.ofInt 8 n &&& 0x3F, 0, 0, 0, 0, 0] ∧
      ((u.res[1].extractLsb' 0 6).toInt = n ↔ -32 ≤ n ∧ n ≤ 31)

/-- R130, R132, R134: the control and RAM writes move their byte unchanged, whatever its bits. -/
def Obligations.ControlWritesMoveTheByteUnchanged : Prop :=
  ∀ b : Byte,
    encode (.setControl1 b) = wordOf 0x42 #v[b, 0, 0, 0, 0, 0, 0] ∧
    encode (.setControl2 b) = wordOf 0x44 #v[b, 0, 0, 0, 0, 0, 0] ∧
    encode (.setRam b) = wordOf 0x46 #v[b, 0, 0, 0, 0, 0, 0] ∧
    ∀ s : State, WritesOnce (.setControl1 b) 0x00 [b] s ∧ WritesOnce (.setControl2 b) 0x01 [b] s ∧
      WritesOnce (.setRam b) 0x03 [b] s

/-- R131, R133, R135: the control and RAM reads return the register byte unchanged. That the register pointer stands one past
the register after a successful read is the model's (DEDUCED, log entry 3); no rule says it. -/
def Obligations.ControlReadsReturnTheByte : Prop :=
  encode .getControl1 = 0x4300000000000000#64 ∧ encode .getControl2 = 0x4500000000000000#64 ∧
  encode .getRam = 0x4700000000000000#64 ∧
  ∀ s : State, ReadsOnce .getControl1 0x00 1 (fun b => [byteAt b 0]) s ∧
    ReadsOnce .getControl2 0x01 1 (fun b => [byteAt b 0]) s ∧ ReadsOnce .getRam 0x03 1 (fun b => [byteAt b 0]) s

/-- R139: `getOS` is one read of one byte at Seconds and returns its bit 7; the flag is not changed by reading it. That the
register pointer stands at `0x05` after a successful read is the model's (DEDUCED, log entry 3); no rule says it. -/
def Obligations.GetOSReturnsBit7 : Prop :=
  encode .getOS = 0x4800000000000000#64 ∧
  ∀ s : State, ReadsOnce .getOS 0x04 1 (fun b => [byteAt b 0 >>> 7]) s

/-- R140: with `CLEAROS_LITERAL = 0`, `clearOS` reads Seconds and, if that succeeds, writes it back with bit 7 cleared; a
failed read ends it with nothing written and the read's status. -/
def Obligations.ClearOSReadsThenWrites : Prop :=
  encode .clearOS = 0x4900000000000000#64 ∧
  ∀ s : State, s.clearosLiteral = false →
    (s.nextAnswer.succeeds = true →
      EndsInWrite (exec .clearOS s) (s.afterRead 0x04 1) 0x04 [byteAt (s.readGives 0x04 1) 0 &&& 0x7F]) ∧
    (∀ e, s.nextAnswer.failure = some e → ∃ t, exec .clearOS s = .next t ∧ ReadFailed s t 0x04 1 e.code) ∧
    (s.nextAnswer = .never → exec .clearOS s = .fault .transportNeverCompletes)

/-- R141: with `CLEAROS_LITERAL = 1`, `clearOS` is a pointer-only write, a raw read that gives a free value, and a write of
that value with bit 7 cleared; the first failing write ends it. -/
def Obligations.LiteralClearOSWritesAnyByte : Prop :=
  ∀ s : State, s.clearosLiteral = true →
    (s.nextAnswer.succeeds = true → ∃ s1 x,
      s1 = { s.afterWrite 0x04 [] with trace := (s.afterWrite 0x04 []).trace ++ [.rawRead x], draws := s.draws + 1 } ∧
      x = Config.draw8 s.draws ∧ EndsInWrite (exec .clearOS s) s1 0x04 [x &&& 0x7F]) ∧
    (∀ e, s.nextAnswer.failure = some e →
      ∃ t, exec .clearOS s = .next t ∧ WriteFailed s t 0x04 [] e.code s.nextAnswer.stored) ∧
    (s.nextAnswer = .never → exec .clearOS s = .fault .transportNeverCompletes)

/-- Against the storing mock `clearOS` completes in both configurations with bit 7 of Seconds clear; corrected, the other
seven bits of Seconds are kept, literal they are those of a free value; every other register is as before (R140, R141). -/
def Obligations.ClearOSCompletes : Prop :=
  ∀ s : State, s.storing →
    ∃ t, exec .clearOS s = .next t ∧ t.status = 0x00 ∧ t.res = Seven.zero ∧
      t.regs.read 0x04 = (if s.clearosLiteral then Config.draw8 s.draws else s.regs.read 0x04) &&& 0x7F ∧
      osFlag (t.regs.read 0x04) = 0 ∧ (∀ x, x ≠ 0x04 → t.regs.read x = s.regs.read x) ∧ SameInputs s t

/-- The document's property 6: after a power interruption `getOS` returns 1; the corrected `clearOS` clears bit 7 alone, and
then `getOS` returns 0 (R37, R139, R140). -/
def Obligations.OscillatorStopDetectedAndCleared : Prop :=
  ∀ s : State, s.storing → s.clearosLiteral = false →
    ∃ t1 t2 t3, exec .getOS (s.powerInterruption []) = .next t1 ∧ t1.status = 0 ∧ t1.res[0] = 1 ∧
      exec .clearOS t1 = .next t2 ∧ t2.status = 0 ∧ t2.regs.read 0x04 = s.regs.read 0x04 &&& 0x7F ∧
      exec .getOS t2 = .next t3 ∧ t3.status = 0 ∧ t3.res[0] = 0

/-- Read-modify-write is not atomic: if the device changes Seconds to any byte between the read and the write of the
corrected `clearOS`, the write puts the older value back (R58, R177). -/
def Obligations.ClearOSPutsTheOlderSecondsBack : Prop :=
  ∀ (s : State) (x : Byte) tail, s.clearosLiteral = false →
    s.script = ⟨[], .done⟩ :: ⟨[⟨4, x⟩], .done⟩ :: tail →
    ∃ t, exec .clearOS s = .next t ∧ t.status = 0 ∧ t.regs.read 0x04 = s.regs.read 0x04 &&& 0x7F

/-- R142, R143, R144, R145: Control1 and Control2 from their fields and back, in the bit order this spec decides (R21,
R22); nothing but the response changes. -/
def Obligations.ControlBytesAsFields : Prop :=
  (∀ (a b c d e f : Byte) (s : State),
    encode (.packControl1 a b c d e f) = wordOf 0x4A #v[a, b, c, d, e, f, 0] ∧
    exec (.packControl1 a b c d e f) s = .next { s with
      status := 0x00#8
      res := #v[(a &&& 1) <<< 7 ||| (b &&& 1) <<< 5 ||| (c &&& 1) <<< 4 ||| (d &&& 1) <<< 2 ||| (e &&& 1) <<< 1 |||
        (f &&& 1), 0, 0, 0, 0, 0, 0] }) ∧
  (∀ (b : Byte) (s : State),
    encode (.unpackControl1 b) = wordOf 0x4B #v[b, 0, 0, 0, 0, 0, 0] ∧
    exec (.unpackControl1 b) s = .next { s with
      status := 0x00#8
      res := #v[(b >>> 7) &&& 1, (b >>> 5) &&& 1, (b >>> 4) &&& 1, (b >>> 2) &&& 1, (b >>> 1) &&& 1, b &&& 1, 0] }) ∧
  (∀ (a b c d e f : Byte) (s : State),
    encode (.packControl2 a b c d e f) = wordOf 0x4C #v[a, b, c, d, e, f, 0] ∧
    exec (.packControl2 a b c d e f) s = .next { s with
      status := 0x00#8
      res := #v[(a &&& 1) <<< 7 ||| (b &&& 1) <<< 6 ||| (c &&& 1) <<< 5 ||| (d &&& 1) <<< 4 ||| (e &&& 1) <<< 3 |||
        (f &&& 7), 0, 0, 0, 0, 0, 0] }) ∧
  (∀ (b : Byte) (s : State),
    encode (.unpackControl2 b) = wordOf 0x4D #v[b, 0, 0, 0, 0, 0, 0] ∧
    exec (.unpackControl2 b) s = .next { s with
      status := 0x00#8
      res := #v[(b >>> 7) &&& 1, (b >>> 6) &&& 1, (b >>> 5) &&& 1, (b >>> 4) &&& 1, (b >>> 3) &&& 1, b &&& 7, 0] })

/-- The laws of R146: packing what was unpacked gives `b & 0xB7` for Control1 and `b` for Control2; unpacking what was
packed reduces each field to its width. -/
def Obligations.ControlPackUnpackLaws : Prop :=
  (∀ (b : Byte) (s : State), ∃ t u, exec (.unpackControl1 b) s = .next t ∧
    exec (.packControl1 t.res[0] t.res[1] t.res[2] t.res[3] t.res[4] t.res[5]) t = .next u ∧
    u.res[0] = b &&& 0xB7) ∧
  (∀ (b : Byte) (s : State), ∃ t u, exec (.unpackControl2 b) s = .next t ∧
    exec (.packControl2 t.res[0] t.res[1] t.res[2] t.res[3] t.res[4] t.res[5]) t = .next u ∧ u.res[0] = b) ∧
  (∀ (a b c d e f : Byte) (s : State), ∃ t u, exec (.packControl1 a b c d e f) s = .next t ∧
    exec (.unpackControl1 t.res[0]) t = .next u ∧
    u.res = #v[a &&& 1, b &&& 1, c &&& 1, d &&& 1, e &&& 1, f &&& 1, 0]) ∧
  (∀ (a b c d e f : Byte) (s : State), ∃ t u, exec (.packControl2 a b c d e f) s = .next t ∧
    exec (.unpackControl2 t.res[0]) t = .next u ∧
    u.res = #v[a &&& 1, b &&& 1, c &&& 1, d &&& 1, e &&& 1, f &&& 7, 0])

/-! ### The whole machine (60_exceptions.md, 10_state.md) -/

/-- R151: with a mock that fails the address phase, every one of the 19 bus operations returns that status with zero
results, after one attempted transaction (the first of its row of R34), and leaves the register image unchanged; the 8 pure
operations still answer `OK`. -/
def Obligations.AddressPhaseFailureReturnsStatusAndZeros : Prop :=
  ∀ (i : Instr) (e : BusErr) (s : State), s.script = [] → s.failure = some e →
    (usesBus i = true → ∃ t tx, exec i s = .next t ∧ t.status = e.code ∧ t.res = Seven.zero ∧ t.regs = s.regs ∧
      t.trace = s.trace ++ [tx] ∧ tx.status = e.code ∧
      (busTable i s.alarmEnableClobber s.clearosLiteral).head? = some tx.shape) ∧
    (usesBus i = false → ∃ t, exec i s = .next t ∧ t.status = 0x00 ∧ t.trace = s.trace)

/-- R150, R64: the status of a response is `0xFF` exactly for an illegal command; otherwise it is `OK` exactly when no phase of
a transaction of the command failed, and else the status of the first failing one, which is the last attempted (R153). -/
def Obligations.StatusIsTheFirstFailure : Prop :=
  ∀ (s t : State) (w : Word64) rest, s.inbox = .command w :: rest → step s = .next t →
    ∃ new, t.trace = s.trace ++ new ∧
      (t.status = 0xFF#8 ↔ ∃ e, decode w = .error e) ∧ (t.status = 0xFF#8 → new = []) ∧
      (t.status = 0x00#8 → ∀ x ∈ new, x.status = 0x00#8) ∧
      (t.status ≠ 0x00#8 → t.status ≠ 0xFF#8 → ∃ before last, new = before ++ [last] ∧
        last.status = t.status ∧ ∀ x ∈ before, x.status = 0x00#8)

/-- The transactions of an operation are those of its row in the table of R34, in order: all of them when it succeeds, the
first few of them when it fails; none reaches above register `0x11` (R31, R34, R50, R153). -/
def Obligations.TransactionsFollowTheTable : Prop :=
  ∀ (i : Instr) (s t : State), exec i s = .next t →
    ∃ new, t.trace = s.trace ++ new ∧
      new.map Transaction.shape <+: busTable i s.alarmEnableClobber s.clearosLiteral ∧
      (t.status = 0x00 → new.map Transaction.shape = busTable i s.alarmEnableClobber s.clearosLiteral) ∧
      ∀ x ∈ new, x.shape.addr + x.shape.count ≤ 0x12

/-- Every step keeps the canonical form of the register image, from every state that has it (R19, R41; the form is the
model's). -/
def Obligations.StepKeepsTheImageCanonical : Prop :=
  ∀ s t : State, s.regs.wf = true → step s = .next t → t.regs.wf = true

/-- R151: a response with a failure status, be it the transport's or that of an illegal command, has zero results; every
command leaves it so from any state, and every other step keeps it so. -/
def Obligations.FailureResultsAreZero : Prop :=
  (∀ (s t : State) (w : Word64) rest, s.inbox = .command w :: rest → step s = .next t → t.failureIsZero) ∧
  (∀ s t : State, s.failureIsZero → step s = .next t → t.failureIsZero)

/-- The invariants hold after power-up (the values are the model's, log entries 1, 2 and 6). -/
def Obligations.InvariantsHoldAtReset : Prop :=
  State.reset.regs.wf = true ∧ State.reset.failureIsZero ∧ State.reset.transportCompletes ∧ State.reset.storing

/-- No block state survives a command: from two states that agree on the configuration inputs and on the whole environment
(the register image, the script, the failure setting and the counter of free values, `SameEnvironment`), whatever their
records, responses, register pointers, inboxes and traces, an operation gives the same response, the same environment and
the same transactions, or stops alike. This is weaker than R13, which asks agreement only on the answers to the operation's
own transactions. The counter of free values is the model's (log entry 4), and so is the equal register pointer afterwards:
after a read inside the map it is DEDUCED (log entry 3), after a failure or past `0x11` it is one free value drawn from that
counter (log entries 3 and 4). -/
def Obligations.BlockKeepsNoStateBetweenCommands : Prop :=
  ∀ (i : Instr) (s s' : State), SameEnvironment s s' →
    (∀ t, exec i s = .next t → ∃ t' new, exec i s' = .next t' ∧ t'.status = t.status ∧ t'.res = t.res ∧
      SameEnvironment t t' ∧ t.trace = s.trace ++ new ∧ t'.trace = s'.trace ++ new ∧
      (usesBus i = true → t'.ptr = t.ptr)) ∧
    (∀ f, exec i s = .fault f → exec i s' = .fault f)

/-- A step stops only where the transport never completes: if every answer to come completes, the step answers a next
state, of which the same holds (R155; the premise is the environment's promise, which the spec does not give). -/
def Obligations.StepCompletesUnlessTheTransportNeverDoes : Prop :=
  ∀ s : State, s.transportCompletes → ∃ t, step s = .next t ∧ t.transportCompletes

/-- If the transport never completes the first phase of an operation that uses the bus, the operation never completes; a pure
operation needs no transport and always completes with `OK` (R152, R155, R172). -/
def Obligations.OnlyBusOperationsCanHang : Prop :=
  ∀ (i : Instr) (s : State),
    (usesBus i = true → s.nextAnswer = .never → exec i s = .fault .transportNeverCompletes) ∧
    (usesBus i = false → ∃ t, exec i s = .next t ∧ t.status = 0x00 ∧ t.regs = s.regs ∧ t.trace = s.trace)
end

