-- ==== Sys2Proof/Laws/Memory.lean ====
section
/-! SUPPORT. The register space: read after write, what a write leaves alone, and that every operation keeps the
canonical form (`Memory.wf`). -/

namespace Sys2Proof.Machine

/-! ### Reading after a change -/

theorem Memory.read_cons (k : Nat) (b : Byte) (m : Memory) (x : Nat) :
    Memory.read ((k, b) :: m) x = if k = x then b else m.read x := rfl

theorem Memory.read_erase (m : Memory) (a x : Nat) :
    (m.erase a).read x = if x = a then Memory.initByte x else m.read x := by
  induction m with
  | nil => simp [Memory.erase, Memory.read]
  | cons c m ih =>
    obtain ⟨k, b⟩ := c
    by_cases hk : k = a
    · subst hk
      by_cases hx : x = k
      · subst hx
        simpa [Memory.erase] using ih
      · simp [Memory.erase, ih, hx, Memory.read_cons, Ne.symm hx]
    · by_cases hx : k = x
      · subst hx
        simp [Memory.erase, hk, Memory.read_cons]
      · simp [Memory.erase, hk, Memory.read_cons, hx, ih]

theorem Memory.read_insert (m : Memory) (a x : Nat) (b : Byte) :
    (m.insert a b).read x = if x = a then b else m.read x := by
  induction m with
  | nil => by_cases h : a = x <;> simp [Memory.insert, Memory.read, h, eq_comm]
  | cons c m ih =>
    obtain ⟨k, d⟩ := c
    by_cases hk : a < k
    · by_cases h : a = x
      · subst h
        simp [Memory.insert, hk, Memory.read_cons]
      · simp [Memory.insert, hk, Memory.read_cons, h, eq_comm]
    · by_cases he : k = a
      · subst he
        by_cases h : x = k <;> simp [Memory.insert, Memory.read_cons, h, eq_comm]
      · by_cases h : k = x
        · subst h
          simp [Memory.insert, hk, he, Memory.read_cons]
        · simp [Memory.insert, hk, he, Memory.read_cons, h, ih]

/-- A write changes the register written and no other (R45). -/
theorem Memory.read_write (m : Memory) (a x : Nat) (b : Byte) :
    (m.write a b).read x = if x = a then b else m.read x := by
  simp only [Memory.write]
  split
  · rw [Memory.read_erase]
    split <;> simp_all
  · exact Memory.read_insert m a x b

@[simp] theorem Memory.read_write_same (m : Memory) (a : Nat) (b : Byte) : (m.write a b).read a = b := by
  simp [Memory.read_write]

theorem Memory.read_write_other (m : Memory) {a x : Nat} (b : Byte) (h : x ≠ a) :
    (m.write a b).read x = m.read x := by
  simp [Memory.read_write, h]

/-- Writing consecutive registers leaves the others alone (R45). -/
theorem Memory.read_writes_outside (v : List Byte) (m : Memory) {a x : Nat} (h : x < a ∨ a + v.length ≤ x) :
    (m.writes a v).read x = m.read x := by
  induction v generalizing m a with
  | nil => rfl
  | cons b v ih =>
    simp only [List.length_cons] at h
    rw [Memory.writes, ih _ (by omega), Memory.read_write_other _ _ (by omega)]

/-- Byte `k` of the payload is in register `a + k` afterwards (R45, R48). -/
theorem Memory.read_writes_inside (v : List Byte) (m : Memory) (a k : Nat) (h : k < v.length) :
    (m.writes a v).read (a + k) = v[k] := by
  induction v generalizing m a k with
  | nil => simp at h
  | cons b v ih =>
    rw [Memory.writes]
    cases k with
    | zero =>
      rw [Memory.read_writes_outside _ _ (by omega)]
      simp
    | succ k =>
      have := ih (m.write a b) (a + 1) k (by simpa using h)
      rw [show a + 1 + k = a + (k + 1) by omega] at this
      simpa using this

@[simp] theorem Memory.reads_length (m : Memory) (a n : Nat) : (m.reads a n).length = n := by
  induction n generalizing a with
  | zero => rfl
  | succ n ih => simp [Memory.reads, ih]

/-- Byte `k` read is the byte of register `a + k` (R46, R48). -/
theorem Memory.reads_getElem (m : Memory) (a n k : Nat) (h : k < (m.reads a n).length) :
    (m.reads a n)[k] = m.read (a + k) := by
  induction n generalizing a k with
  | zero => simp [Memory.reads] at h
  | succ n ih =>
    cases k with
    | zero => simp [Memory.reads]
    | succ k =>
      simp only [Memory.reads, List.getElem_cons_succ]
      rw [ih, show a + 1 + k = a + (k + 1) by omega]

/-- What the environment's own changes leave alone (R55). -/
theorem Memory.read_applyMoves_other (vs : List Move) (m : Memory) {x : Nat} (h : ∀ v ∈ vs, v.reg.val ≠ x) :
    (m.applyMoves vs).read x = m.read x := by
  induction vs generalizing m with
  | nil => rfl
  | cons v vs ih =>
    rw [Memory.applyMoves, ih _ fun w hw => h w (List.mem_cons_of_mem _ hw),
      Memory.read_write_other _ _ (Ne.symm (h v List.mem_cons_self))]

/-! ### The canonical form -/

theorem Memory.wfFrom_cons {lo k : Nat} {b : Byte} {m : Memory} :
    Memory.wfFrom lo ((k, b) :: m) = true ↔
      lo ≤ k ∧ k ≤ 0x11 ∧ b ≠ Memory.initByte k ∧ Memory.wfFrom (k + 1) m = true := by
  have : Config.regHi = 0x11 := rfl
  simp only [Memory.wfFrom, this, Bool.and_eq_true, decide_eq_true_eq, and_assoc, ne_eq]

theorem Memory.wfFrom_mono {lo lo' : Nat} {m : Memory} (h : Memory.wfFrom lo m = true) (hl : lo' ≤ lo) :
    Memory.wfFrom lo' m = true := by
  cases m with
  | nil => rfl
  | cons c m =>
    obtain ⟨k, b⟩ := c
    rw [Memory.wfFrom_cons] at h ⊢
    exact ⟨by omega, h.2⟩

theorem Memory.wfFrom_erase {lo : Nat} {m : Memory} (a : Nat) (h : Memory.wfFrom lo m = true) :
    Memory.wfFrom lo (m.erase a) = true := by
  induction m generalizing lo with
  | nil => rfl
  | cons c m ih =>
    obtain ⟨k, b⟩ := c
    rw [Memory.wfFrom_cons] at h
    simp only [Memory.erase]
    split
    · exact Memory.wfFrom_mono (ih h.2.2.2) (by omega)
    · rw [Memory.wfFrom_cons]
      exact ⟨h.1, h.2.1, h.2.2.1, ih h.2.2.2⟩

theorem Memory.wfFrom_insert {lo : Nat} {m : Memory} {a : Nat} {b : Byte} (h : Memory.wfFrom lo m = true)
    (hl : lo ≤ a) (ha : a ≤ 0x11) (hb : b ≠ Memory.initByte a) : Memory.wfFrom lo (m.insert a b) = true := by
  induction m generalizing lo with
  | nil => exact Memory.wfFrom_cons.mpr ⟨hl, ha, hb, rfl⟩
  | cons c m ih =>
    obtain ⟨k, d⟩ := c
    have hc := Memory.wfFrom_cons.mp h
    simp only [Memory.insert]
    split
    · exact Memory.wfFrom_cons.mpr
        ⟨hl, ha, hb, Memory.wfFrom_cons.mpr ⟨by omega, hc.2.1, hc.2.2.1, hc.2.2.2⟩⟩
    · split
      · subst_vars
        exact Memory.wfFrom_cons.mpr ⟨hl, ha, hb, hc.2.2.2⟩
      · exact Memory.wfFrom_cons.mpr ⟨hc.1, hc.2.1, hc.2.2.1, ih hc.2.2.2 (by omega)⟩

/-- A write to a register of the map keeps the canonical form. -/
theorem Memory.wf_write {m : Memory} {a : Nat} (b : Byte) (h : m.wf = true) (ha : a ≤ 0x11) :
    (m.write a b).wf = true := by
  simp only [Memory.write]
  split
  · exact Memory.wfFrom_erase a h
  · exact Memory.wfFrom_insert h (Nat.zero_le a) ha ‹_›

/-- So does a write of consecutive registers of the map. -/
theorem Memory.wf_writes (v : List Byte) {m : Memory} {a : Nat} (h : m.wf = true) (ha : a + v.length ≤ 0x12) :
    (m.writes a v).wf = true := by
  induction v generalizing m a with
  | nil => exact h
  | cons b v ih =>
    simp only [List.length_cons] at ha
    exact ih (Memory.wf_write b h (by omega)) (by omega)

/-- So do the environment's own changes. -/
theorem Memory.wf_applyMoves (vs : List Move) {m : Memory} (h : m.wf = true) : (m.applyMoves vs).wf = true := by
  induction vs generalizing m with
  | nil => exact h
  | cons v vs ih => exact ih (Memory.wf_write v.value h (by have := v.reg.isLt; omega))

/-- A power-up image is in canonical form, whatever bytes it holds. -/
theorem Memory.wf_ofImage (image : List Byte) : (Memory.ofImage image).wf = true :=
  Memory.wf_writes _ rfl (by simp [Config.regLo])

end Sys2Proof.Machine
end

