-- ==== Sys2Proof/Laws/State.lean ====
section
/-! SUPPORT. What each update of the state does to each field, one lemma each. -/

namespace Sys2Proof.Machine

/-! ### State.drew -/

@[simp] theorem State.drew_cmd (s : State) : (s.drew).cmd = s.cmd := rfl
@[simp] theorem State.drew_status (s : State) : (s.drew).status = s.status := rfl
@[simp] theorem State.drew_res (s : State) : (s.drew).res = s.res := rfl
@[simp] theorem State.drew_alarmEnableClobber (s : State) : (s.drew).alarmEnableClobber = s.alarmEnableClobber := rfl
@[simp] theorem State.drew_clearosLiteral (s : State) : (s.drew).clearosLiteral = s.clearosLiteral := rfl
@[simp] theorem State.drew_regs (s : State) : (s.drew).regs = s.regs := rfl
@[simp] theorem State.drew_ptr (s : State) : (s.drew).ptr = s.ptr := rfl
@[simp] theorem State.drew_failure (s : State) : (s.drew).failure = s.failure := rfl
@[simp] theorem State.drew_script (s : State) : (s.drew).script = s.script := rfl
@[simp] theorem State.drew_inbox (s : State) : (s.drew).inbox = s.inbox := rfl
@[simp] theorem State.drew_trace (s : State) : (s.drew).trace = s.trace := rfl
@[simp] theorem State.drew_draws (s : State) : (s.drew).draws = s.draws + 1 := rfl

/-! ### State.losePointer -/

@[simp] theorem State.losePointer_cmd (s : State) : (s.losePointer).cmd = s.cmd := rfl
@[simp] theorem State.losePointer_status (s : State) : (s.losePointer).status = s.status := rfl
@[simp] theorem State.losePointer_res (s : State) : (s.losePointer).res = s.res := rfl
@[simp] theorem State.losePointer_alarmEnableClobber (s : State) : (s.losePointer).alarmEnableClobber = s.alarmEnableClobber := rfl
@[simp] theorem State.losePointer_clearosLiteral (s : State) : (s.losePointer).clearosLiteral = s.clearosLiteral := rfl
@[simp] theorem State.losePointer_regs (s : State) : (s.losePointer).regs = s.regs := rfl
@[simp] theorem State.losePointer_ptr (s : State) : (s.losePointer).ptr = Config.pointerDraw s.draws := rfl
@[simp] theorem State.losePointer_failure (s : State) : (s.losePointer).failure = s.failure := rfl
@[simp] theorem State.losePointer_script (s : State) : (s.losePointer).script = s.script := rfl
@[simp] theorem State.losePointer_inbox (s : State) : (s.losePointer).inbox = s.inbox := rfl
@[simp] theorem State.losePointer_trace (s : State) : (s.losePointer).trace = s.trace := rfl
@[simp] theorem State.losePointer_draws (s : State) : (s.losePointer).draws = s.draws + 1 := rfl

/-! ### State.movePointer -/

@[simp] theorem State.movePointer_cmd (s : State) (a : Byte) (n : Nat) : (s.movePointer a n).cmd = s.cmd := by unfold State.movePointer; split <;> rfl
@[simp] theorem State.movePointer_status (s : State) (a : Byte) (n : Nat) : (s.movePointer a n).status = s.status := by unfold State.movePointer; split <;> rfl
@[simp] theorem State.movePointer_res (s : State) (a : Byte) (n : Nat) : (s.movePointer a n).res = s.res := by unfold State.movePointer; split <;> rfl
@[simp] theorem State.movePointer_alarmEnableClobber (s : State) (a : Byte) (n : Nat) : (s.movePointer a n).alarmEnableClobber = s.alarmEnableClobber := by unfold State.movePointer; split <;> rfl
@[simp] theorem State.movePointer_clearosLiteral (s : State) (a : Byte) (n : Nat) : (s.movePointer a n).clearosLiteral = s.clearosLiteral := by unfold State.movePointer; split <;> rfl
@[simp] theorem State.movePointer_regs (s : State) (a : Byte) (n : Nat) : (s.movePointer a n).regs = s.regs := by unfold State.movePointer; split <;> rfl
@[simp] theorem State.movePointer_failure (s : State) (a : Byte) (n : Nat) : (s.movePointer a n).failure = s.failure := by unfold State.movePointer; split <;> rfl
@[simp] theorem State.movePointer_script (s : State) (a : Byte) (n : Nat) : (s.movePointer a n).script = s.script := by unfold State.movePointer; split <;> rfl
@[simp] theorem State.movePointer_inbox (s : State) (a : Byte) (n : Nat) : (s.movePointer a n).inbox = s.inbox := by unfold State.movePointer; split <;> rfl
@[simp] theorem State.movePointer_trace (s : State) (a : Byte) (n : Nat) : (s.movePointer a n).trace = s.trace := by unfold State.movePointer; split <;> rfl

/-! ### State.environmentMoves -/

@[simp] theorem State.environmentMoves_cmd (s : State) (v : List Move) : (s.environmentMoves v).cmd = s.cmd := rfl
@[simp] theorem State.environmentMoves_status (s : State) (v : List Move) : (s.environmentMoves v).status = s.status := rfl
@[simp] theorem State.environmentMoves_res (s : State) (v : List Move) : (s.environmentMoves v).res = s.res := rfl
@[simp] theorem State.environmentMoves_alarmEnableClobber (s : State) (v : List Move) : (s.environmentMoves v).alarmEnableClobber = s.alarmEnableClobber := rfl
@[simp] theorem State.environmentMoves_clearosLiteral (s : State) (v : List Move) : (s.environmentMoves v).clearosLiteral = s.clearosLiteral := rfl
@[simp] theorem State.environmentMoves_regs (s : State) (v : List Move) : (s.environmentMoves v).regs = s.regs.applyMoves v := rfl
@[simp] theorem State.environmentMoves_ptr (s : State) (v : List Move) : (s.environmentMoves v).ptr = s.ptr := rfl
@[simp] theorem State.environmentMoves_failure (s : State) (v : List Move) : (s.environmentMoves v).failure = s.failure := rfl
@[simp] theorem State.environmentMoves_script (s : State) (v : List Move) : (s.environmentMoves v).script = s.script := rfl
@[simp] theorem State.environmentMoves_inbox (s : State) (v : List Move) : (s.environmentMoves v).inbox = s.inbox := rfl
@[simp] theorem State.environmentMoves_trace (s : State) (v : List Move) : (s.environmentMoves v).trace = s.trace := rfl
@[simp] theorem State.environmentMoves_draws (s : State) (v : List Move) : (s.environmentMoves v).draws = s.draws := rfl

/-! ### State.reach -/

@[simp] theorem State.reach_cmd (s : State) : (s.reach).cmd = s.cmd := rfl
@[simp] theorem State.reach_status (s : State) : (s.reach).status = s.status := rfl
@[simp] theorem State.reach_res (s : State) : (s.reach).res = s.res := rfl
@[simp] theorem State.reach_alarmEnableClobber (s : State) : (s.reach).alarmEnableClobber = s.alarmEnableClobber := rfl
@[simp] theorem State.reach_clearosLiteral (s : State) : (s.reach).clearosLiteral = s.clearosLiteral := rfl
@[simp] theorem State.reach_regs (s : State) : (s.reach).regs = s.regs.applyMoves s.nextEvent.moves := rfl
@[simp] theorem State.reach_ptr (s : State) : (s.reach).ptr = s.ptr := rfl
@[simp] theorem State.reach_failure (s : State) : (s.reach).failure = s.failure := rfl
@[simp] theorem State.reach_script (s : State) : (s.reach).script = s.script.tail := rfl
@[simp] theorem State.reach_inbox (s : State) : (s.reach).inbox = s.inbox := rfl
@[simp] theorem State.reach_trace (s : State) : (s.reach).trace = s.trace := rfl
@[simp] theorem State.reach_draws (s : State) : (s.reach).draws = s.draws := rfl

/-! ### State.issued -/

@[simp] theorem State.issued_cmd (s : State) (t : Transaction) : (s.issued t).cmd = s.cmd := rfl
@[simp] theorem State.issued_status (s : State) (t : Transaction) : (s.issued t).status = s.status := rfl
@[simp] theorem State.issued_res (s : State) (t : Transaction) : (s.issued t).res = s.res := rfl
@[simp] theorem State.issued_alarmEnableClobber (s : State) (t : Transaction) : (s.issued t).alarmEnableClobber = s.alarmEnableClobber := rfl
@[simp] theorem State.issued_clearosLiteral (s : State) (t : Transaction) : (s.issued t).clearosLiteral = s.clearosLiteral := rfl
@[simp] theorem State.issued_regs (s : State) (t : Transaction) : (s.issued t).regs = s.regs := rfl
@[simp] theorem State.issued_ptr (s : State) (t : Transaction) : (s.issued t).ptr = s.ptr := rfl
@[simp] theorem State.issued_failure (s : State) (t : Transaction) : (s.issued t).failure = s.failure := rfl
@[simp] theorem State.issued_script (s : State) (t : Transaction) : (s.issued t).script = s.script := rfl
@[simp] theorem State.issued_inbox (s : State) (t : Transaction) : (s.issued t).inbox = s.inbox := rfl
@[simp] theorem State.issued_trace (s : State) (t : Transaction) : (s.issued t).trace = s.trace ++ [t] := rfl
@[simp] theorem State.issued_draws (s : State) (t : Transaction) : (s.issued t).draws = s.draws := rfl

/-! ### State.respond -/

@[simp] theorem State.respond_cmd (s : State) (l : List Byte) : (s.respond l).cmd = s.cmd := rfl
@[simp] theorem State.respond_status (s : State) (l : List Byte) : (s.respond l).status = Config.statusOk := rfl
@[simp] theorem State.respond_res (s : State) (l : List Byte) : (s.respond l).res = results l := rfl
@[simp] theorem State.respond_alarmEnableClobber (s : State) (l : List Byte) : (s.respond l).alarmEnableClobber = s.alarmEnableClobber := rfl
@[simp] theorem State.respond_clearosLiteral (s : State) (l : List Byte) : (s.respond l).clearosLiteral = s.clearosLiteral := rfl
@[simp] theorem State.respond_regs (s : State) (l : List Byte) : (s.respond l).regs = s.regs := rfl
@[simp] theorem State.respond_ptr (s : State) (l : List Byte) : (s.respond l).ptr = s.ptr := rfl
@[simp] theorem State.respond_failure (s : State) (l : List Byte) : (s.respond l).failure = s.failure := rfl
@[simp] theorem State.respond_script (s : State) (l : List Byte) : (s.respond l).script = s.script := rfl
@[simp] theorem State.respond_inbox (s : State) (l : List Byte) : (s.respond l).inbox = s.inbox := rfl
@[simp] theorem State.respond_trace (s : State) (l : List Byte) : (s.respond l).trace = s.trace := rfl
@[simp] theorem State.respond_draws (s : State) (l : List Byte) : (s.respond l).draws = s.draws := rfl

/-! ### State.raiseBusTransactionError -/

@[simp] theorem State.raiseBusTransactionError_cmd (s : State) (e : BusErr) : (s.raiseBusTransactionError e).cmd = s.cmd := rfl
@[simp] theorem State.raiseBusTransactionError_status (s : State) (e : BusErr) : (s.raiseBusTransactionError e).status = e.code := rfl
@[simp] theorem State.raiseBusTransactionError_res (s : State) (e : BusErr) : (s.raiseBusTransactionError e).res = Seven.zero := rfl
@[simp] theorem State.raiseBusTransactionError_alarmEnableClobber (s : State) (e : BusErr) : (s.raiseBusTransactionError e).alarmEnableClobber = s.alarmEnableClobber := rfl
@[simp] theorem State.raiseBusTransactionError_clearosLiteral (s : State) (e : BusErr) : (s.raiseBusTransactionError e).clearosLiteral = s.clearosLiteral := rfl
@[simp] theorem State.raiseBusTransactionError_regs (s : State) (e : BusErr) : (s.raiseBusTransactionError e).regs = s.regs := rfl
@[simp] theorem State.raiseBusTransactionError_ptr (s : State) (e : BusErr) : (s.raiseBusTransactionError e).ptr = s.ptr := rfl
@[simp] theorem State.raiseBusTransactionError_failure (s : State) (e : BusErr) : (s.raiseBusTransactionError e).failure = s.failure := rfl
@[simp] theorem State.raiseBusTransactionError_script (s : State) (e : BusErr) : (s.raiseBusTransactionError e).script = s.script := rfl
@[simp] theorem State.raiseBusTransactionError_inbox (s : State) (e : BusErr) : (s.raiseBusTransactionError e).inbox = s.inbox := rfl
@[simp] theorem State.raiseBusTransactionError_trace (s : State) (e : BusErr) : (s.raiseBusTransactionError e).trace = s.trace := rfl
@[simp] theorem State.raiseBusTransactionError_draws (s : State) (e : BusErr) : (s.raiseBusTransactionError e).draws = s.draws := rfl

/-! ### State.illegalCommand -/

@[simp] theorem State.illegalCommand_cmd (s : State) : (s.illegalCommand).cmd = s.cmd := rfl
@[simp] theorem State.illegalCommand_status (s : State) : (s.illegalCommand).status = Config.statusIllegal := rfl
@[simp] theorem State.illegalCommand_res (s : State) : (s.illegalCommand).res = Seven.zero := rfl
@[simp] theorem State.illegalCommand_alarmEnableClobber (s : State) : (s.illegalCommand).alarmEnableClobber = s.alarmEnableClobber := rfl
@[simp] theorem State.illegalCommand_clearosLiteral (s : State) : (s.illegalCommand).clearosLiteral = s.clearosLiteral := rfl
@[simp] theorem State.illegalCommand_regs (s : State) : (s.illegalCommand).regs = s.regs := rfl
@[simp] theorem State.illegalCommand_ptr (s : State) : (s.illegalCommand).ptr = s.ptr := rfl
@[simp] theorem State.illegalCommand_failure (s : State) : (s.illegalCommand).failure = s.failure := rfl
@[simp] theorem State.illegalCommand_script (s : State) : (s.illegalCommand).script = s.script := rfl
@[simp] theorem State.illegalCommand_inbox (s : State) : (s.illegalCommand).inbox = s.inbox := rfl
@[simp] theorem State.illegalCommand_trace (s : State) : (s.illegalCommand).trace = s.trace := rfl
@[simp] theorem State.illegalCommand_draws (s : State) : (s.illegalCommand).draws = s.draws := rfl

/-! ### State.accept -/

@[simp] theorem State.accept_cmd (s : State) (w : Word64) (r : List Input) : (s.accept w r).cmd = Command.ofWord w := rfl
@[simp] theorem State.accept_status (s : State) (w : Word64) (r : List Input) : (s.accept w r).status = s.status := rfl
@[simp] theorem State.accept_res (s : State) (w : Word64) (r : List Input) : (s.accept w r).res = s.res := rfl
@[simp] theorem State.accept_alarmEnableClobber (s : State) (w : Word64) (r : List Input) : (s.accept w r).alarmEnableClobber = s.alarmEnableClobber := rfl
@[simp] theorem State.accept_clearosLiteral (s : State) (w : Word64) (r : List Input) : (s.accept w r).clearosLiteral = s.clearosLiteral := rfl
@[simp] theorem State.accept_regs (s : State) (w : Word64) (r : List Input) : (s.accept w r).regs = s.regs := rfl
@[simp] theorem State.accept_ptr (s : State) (w : Word64) (r : List Input) : (s.accept w r).ptr = s.ptr := rfl
@[simp] theorem State.accept_failure (s : State) (w : Word64) (r : List Input) : (s.accept w r).failure = s.failure := rfl
@[simp] theorem State.accept_script (s : State) (w : Word64) (r : List Input) : (s.accept w r).script = s.script := rfl
@[simp] theorem State.accept_inbox (s : State) (w : Word64) (r : List Input) : (s.accept w r).inbox = r := rfl
@[simp] theorem State.accept_trace (s : State) (w : Word64) (r : List Input) : (s.accept w r).trace = s.trace := rfl
@[simp] theorem State.accept_draws (s : State) (w : Word64) (r : List Input) : (s.accept w r).draws = s.draws := rfl

/-- Up to `0x11` the pointer moves one register for each byte (R32, R45). -/
theorem State.movePointer_inside (s : State) {a : Byte} {n : Nat} (h : a.toNat + n ≤ 0x11) :
    s.movePointer a n = { s with ptr := a + BitVec.ofNat 8 n } := if_pos h

/-- Past `0x11` the pointer is left open (log entry 3). -/
theorem State.movePointer_beyond (s : State) {a : Byte} {n : Nat} (h : ¬ a.toNat + n ≤ 0x11) :
    s.movePointer a n = s.losePointer := if_neg h

/-- The next event of a script that has one. -/
@[simp] theorem State.nextEvent_cons {s : State} {ev : BusEvent} {l : List BusEvent} (h : s.script = ev :: l) :
    s.nextEvent = ev := by simp [State.nextEvent, h]

/-- With nothing in the script the storing mock answers (R53). -/
@[simp] theorem State.nextEvent_nil {s : State} (h : s.script = []) :
    s.nextEvent = ⟨[], mockAnswer s.failure⟩ := by simp [State.nextEvent, h]

/-- With nothing in the script a transaction finds the state as it is (R53: the mock moves nothing by itself). -/
theorem State.reach_of_nil {s : State} (h : s.script = []) : s.reach = s := by
  cases s
  simp only at h
  subst h
  rfl

/-- A power interruption sets bit 7 of Seconds over whatever the environment left (R37). -/
theorem State.powerInterruption_eq (s : State) (v : List Move) :
    s.powerInterruption v =
      { s with regs := (s.regs.applyMoves v).write 0x04 (setOsFlag ((s.regs.applyMoves v).read 0x04))
               ptr := Config.pointerDraw s.draws, draws := s.draws + 1 } := rfl

end Sys2Proof.Machine
end

