-- ==== Sys2Proof/Laws/Bus.lean ====
section
/-! SUPPORT. What the two transaction shapes and the operations made of them can do, said once for each. -/

namespace Sys2Proof.Machine

/-- Everything a write transaction can do: it succeeds, it fails with a part of its payload stored, or it never ends. -/
theorem memWrite_cases (a : Byte) (v : List Byte) (s : State) :
    (s.nextAnswer.succeeds = true ∧ memWrite a v s = .ok () (s.afterWrite a v)) ∨
    (∃ e, s.nextAnswer.failure = some e ∧
      memWrite a v s = .failed e (s.afterFailedWrite a v e s.nextAnswer.stored)) ∨
    (s.nextAnswer = .never ∧ memWrite a v s = .stuck) := by
  unfold memWrite State.afterWrite State.afterFailedWrite
  cases h : s.nextAnswer <;> simp [Answer.succeeds, Answer.failure, Answer.stored, Memory.writes] <;> rfl

/-- Everything a read transaction can do: it succeeds, it fails in one of its phases with no register changed, or it never
ends. -/
theorem memRead_cases (a : Byte) (n : Nat) (s : State) :
    (s.nextAnswer.succeeds = true ∧ memRead a n s = .ok (s.readGives a n) (s.afterRead a n)) ∨
    (∃ e tx, s.nextAnswer.failure = some e ∧ tx.status = e.code ∧
      (tx = .read a n e.code none ∨ tx = .read a n 0x00 (some (e.code, []))) ∧
      memRead a n s = .failed e (s.reach.losePointer.issued tx)) ∨
    (s.nextAnswer = .never ∧ memRead a n s = .stuck) := by
  unfold memRead State.afterRead State.readGives
  cases h : s.nextAnswer with
  | done => exact .inl ⟨rfl, rfl⟩
  | doneGiving d => exact .inl ⟨rfl, rfl⟩
  | pointerFails e => exact .inr (.inl ⟨e, _, rfl, rfl, .inl rfl, rfl⟩)
  | dataFails e j => exact .inr (.inl ⟨e, _, rfl, rfl, .inr rfl, rfl⟩)
  | never => exact .inr (.inr ⟨rfl, rfl⟩)

/-- Everything an operation of one write transaction can do. -/
theorem writeOp_cases (a : Byte) (v : List Byte) (s : State) :
    (s.nextAnswer.succeeds = true ∧ writeOp a v s = .next ((s.afterWrite a v).respond [])) ∨
    (∃ e, s.nextAnswer.failure = some e ∧
      writeOp a v s = .next ((s.afterFailedWrite a v e s.nextAnswer.stored).raiseBusTransactionError e)) ∨
    (s.nextAnswer = .never ∧ writeOp a v s = .fault .transportNeverCompletes) := by
  rcases memWrite_cases a v s with ⟨h, hw⟩ | ⟨e, h, hw⟩ | ⟨h, hw⟩
  · exact .inl ⟨h, by simp [writeOp, hw, Tx.andThen]⟩
  · exact .inr (.inl ⟨e, h, by simp [writeOp, hw, Tx.andThen]⟩)
  · exact .inr (.inr ⟨h, by simp [writeOp, hw, Tx.andThen]⟩)

/-- Everything an operation of one read transaction can do. -/
theorem readOp_cases (a : Byte) (n : Nat) (f : List Byte → List Byte) (s : State) :
    (s.nextAnswer.succeeds = true ∧ readOp a n f s = .next ((s.afterRead a n).respond (f (s.readGives a n)))) ∨
    (∃ e tx, s.nextAnswer.failure = some e ∧ tx.status = e.code ∧
      (tx = .read a n e.code none ∨ tx = .read a n 0x00 (some (e.code, []))) ∧
      readOp a n f s = .next ((s.reach.losePointer.issued tx).raiseBusTransactionError e)) ∨
    (s.nextAnswer = .never ∧ readOp a n f s = .fault .transportNeverCompletes) := by
  rcases memRead_cases a n s with ⟨h, hw⟩ | ⟨e, tx, h, hs, ht, hw⟩ | ⟨h, hw⟩
  · exact .inl ⟨h, by simp [readOp, hw, Tx.andThen]⟩
  · exact .inr (.inl ⟨e, tx, h, hs, ht, by simp [readOp, hw, Tx.andThen]⟩)
  · exact .inr (.inr ⟨h, by simp [readOp, hw, Tx.andThen]⟩)

/-- The frame of a write transaction that succeeded, with its response (R45, R63). -/
theorem wrote_afterWrite (s : State) (a : Byte) (v : List Byte) : Wrote s ((s.afterWrite a v).respond []) a v where
  status := rfl
  res := rfl
  inside k h := by
    simpa [State.afterWrite] using Memory.read_writes_inside v s.reach.regs a.toNat k h
  outside x h := by
    simpa [State.afterWrite] using Memory.read_writes_outside v s.reach.regs h
  pointer h := by simp [State.afterWrite, State.movePointer_inside _ h]
  trace := by simp [State.afterWrite]
  script := by simp [State.afterWrite]
  same := by constructor <;> simp [State.afterWrite]

/-- The frame of a write transaction that failed, with its response (R54, R151). -/
theorem writeFailed_afterFailedWrite (s : State) (a : Byte) (v : List Byte) (e : BusErr) (j : Nat) :
    WriteFailed s ((s.afterFailedWrite a v e j).raiseBusTransactionError e) a v e.code j where
  status := rfl
  res := rfl
  stored k h hj := by
    have hk : k < (v.take j).length := by simp; omega
    have := Memory.read_writes_inside (v.take j) s.reach.regs a.toNat k hk
    simpa [State.afterFailedWrite] using this
  outside x h := by
    have := Memory.read_writes_outside (v.take j) s.reach.regs (a := a.toNat) (x := x) (by simpa using h)
    simpa [State.afterFailedWrite] using this
  trace := by simp [State.afterFailedWrite]
  script := by simp [State.afterFailedWrite]
  same := by constructor <;> simp [State.afterFailedWrite]

/-- The frame of a read transaction that succeeded, with its response (R46, R63). -/
theorem readDone_afterRead (s : State) (a : Byte) (n : Nat) (rs : List Byte) :
    ReadDone s ((s.afterRead a n).respond rs) a n rs where
  status := rfl
  res := rfl
  regs x := by simp [State.afterRead]
  pointer h := by simp [State.afterRead, State.movePointer_inside _ h]
  trace := by simp [State.afterRead]
  script := by simp [State.afterRead]
  same := by constructor <;> simp [State.afterRead]

/-- The frame of a read transaction that failed, with its response (R54, R151). -/
theorem readFailed_of_issued (s : State) (a : Byte) (n : Nat) (e : BusErr) {tx : Transaction}
    (h : tx = .read a n e.code none ∨ tx = .read a n 0x00 (some (e.code, []))) :
    ReadFailed s ((s.reach.losePointer.issued tx).raiseBusTransactionError e) a n e.code where
  status := rfl
  res := rfl
  regs x := by simp
  trace := by rcases h with h | h <;> simp [h]
  script := by simp
  same := by constructor <;> simp

/-- A failure is no success, and neither is an answer that never comes. -/
theorem Answer.failure_excludes {a : Answer} {e : BusErr} (h : a.failure = some e) :
    a.succeeds = false ∧ a ≠ .never := by
  cases a <;> simp_all [Answer.failure, Answer.succeeds]

/-- An operation of one write transaction, in every outcome (R90, R100, R103, R110). -/
theorem writeOp_endsInWrite (a : Byte) (v : List Byte) (s : State) : EndsInWrite (writeOp a v s) s a v := by
  rcases writeOp_cases a v s with ⟨h, hw⟩ | ⟨e, h, hw⟩ | ⟨h, hw⟩
  · refine ⟨fun _ => ⟨_, hw, wrote_afterWrite s a v⟩, fun e he => ?_, fun hn => ?_⟩
    · simp [(Answer.failure_excludes he).1] at h
    · simp [hn, Answer.succeeds] at h
  · have hx := Answer.failure_excludes h
    refine ⟨fun hs => ?_, fun e' he => ?_, fun hn => absurd hn hx.2⟩
    · simp [hx.1] at hs
    · obtain rfl : e = e' := Option.some.inj (h.symm.trans he)
      exact ⟨_, hw, writeFailed_afterFailedWrite s a v e _⟩
  · refine ⟨fun hs => ?_, fun e he => absurd h (Answer.failure_excludes he).2, fun _ => hw⟩
    simp [h, Answer.succeeds] at hs

/-- An operation of one read transaction, in every outcome (R93, R113, R127, R131, R139). -/
theorem readOp_readsOnce (a : Byte) (n : Nat) (f : List Byte → List Byte) (s : State) :
    (s.nextAnswer.succeeds = true → ∃ t, readOp a n f s = .next t ∧ ReadDone s t a n (f (s.readGives a n))) ∧
    (∀ e, s.nextAnswer.failure = some e → ∃ t, readOp a n f s = .next t ∧ ReadFailed s t a n e.code) ∧
    (s.nextAnswer = .never → readOp a n f s = .fault .transportNeverCompletes) := by
  rcases readOp_cases a n f s with ⟨h, hw⟩ | ⟨e, tx, h, _, ht, hw⟩ | ⟨h, hw⟩
  · refine ⟨fun _ => ⟨_, hw, readDone_afterRead s a n _⟩, fun e he => ?_, fun hn => ?_⟩
    · simp [(Answer.failure_excludes he).1] at h
    · simp [hn, Answer.succeeds] at h
  · have hx := Answer.failure_excludes h
    refine ⟨fun hs => ?_, fun e' he => ?_, fun hn => absurd hn hx.2⟩
    · simp [hx.1] at hs
    · obtain rfl : e = e' := Option.some.inj (h.symm.trans he)
      exact ⟨_, hw, readFailed_of_issued s a n e ht⟩
  · refine ⟨fun hs => ?_, fun e he => absurd h (Answer.failure_excludes he).2, fun _ => hw⟩
    simp [h, Answer.succeeds] at hs

/-- An answer succeeds, or fails with a code, or never comes. -/
theorem Answer.trichotomy (a : Answer) : a.succeeds = true ∨ (∃ e, a.failure = some e) ∨ a = .never := by
  cases a <;> simp [Answer.succeeds, Answer.failure]

/-- A storing mock without failures answers with success (R53). -/
theorem nextAnswer_of_storing {s : State} (h : s.script = []) (hf : s.failure = none) : s.nextAnswer = .done := by
  simp [State.nextAnswer, State.nextEvent, h, hf, mockAnswer]

/-- A read answered from the image gives the bytes of the registers, lowest address first (R46). -/
theorem readGives_of_done {s : State} (h : s.nextAnswer = .done) (a : Byte) (n : Nat) :
    s.readGives a n = s.reach.regs.reads a.toNat n := by
  simp [State.readGives, h, Answer.bytes]

/-- A read always gives as many bytes as it asks for (R52). -/
@[simp] theorem readGives_length (s : State) (a : Byte) (n : Nat) : (s.readGives a n).length = n := by
  unfold State.readGives
  cases s.nextAnswer <;> simp [Answer.bytes]
  omega

end Sys2Proof.Machine
end

