-- ==== Sys2Proof/Laws/Encoding.lean ====
section
/-! SUPPORT. The bytes of a word, and the small laws of the encoder and the assembler's checks. -/

namespace Sys2Proof

/-- The last byte of an append. -/
theorem extract_append_last {n : Nat} (x : BitVec n) (y : Byte) : (x ++ y).extractLsb' 0 8 = y := by
  ext i h
  simp [BitVec.getLsbD_append, h]

/-- An earlier byte of an append. -/
theorem extract_append_skip {n : Nat} (x : BitVec n) (y : Byte) (k : Nat) :
    (x ++ y).extractLsb' (k + 8) 8 = x.extractLsb' k 8 := by
  ext i h
  have h1 : ¬ k + 8 + i < 8 := by omega
  have h2 : k + 8 + i - 8 = k + i := by omega
  simp [BitVec.getLsbD_append, h1, h2]

/-- Byte 0 of a word is its first byte (R61, R63). -/
theorem byteOf_wordOf_first (b : Byte) (v : Seven) : byteOf (wordOf b v) 0 = b := by
  simp only [byteOf, wordOf, Nat.mul_zero, Nat.sub_zero]
  simp only [extract_append_skip _ _ 48, extract_append_skip _ _ 40, extract_append_skip _ _ 32,
    extract_append_skip _ _ 24, extract_append_skip _ _ 16, extract_append_skip _ _ 8, extract_append_skip _ _ 0]
  exact BitVec.extractLsb'_eq_self

/-- Byte `k + 1` of a word is byte `k` of its seven (R61, R63). -/
theorem byteOf_wordOf_next (b : Byte) (v : Seven) :
    byteOf (wordOf b v) 1 = v[0] ∧ byteOf (wordOf b v) 2 = v[1] ∧ byteOf (wordOf b v) 3 = v[2] ∧
    byteOf (wordOf b v) 4 = v[3] ∧ byteOf (wordOf b v) 5 = v[4] ∧ byteOf (wordOf b v) 6 = v[5] ∧
    byteOf (wordOf b v) 7 = v[6] := by
  simp only [byteOf, wordOf, Nat.reduceMul, Nat.reduceSub]
  simp only [extract_append_skip _ _ 40, extract_append_skip _ _ 32, extract_append_skip _ _ 24,
    extract_append_skip _ _ 16, extract_append_skip _ _ 8, extract_append_skip _ _ 0, extract_append_last, and_self]

/-- A written byte is a legal operand wherever it stands (R65). -/
theorem AsmArg.byte_legal (m : String) (k : Nat) (b : Byte) : (AsmArg.byte b).legal m k = true := by
  have h : b.toNat < 256 := b.isLt
  simp only [AsmArg.byte, AsmArg.legal, Bool.or_eq_true, Bool.and_eq_true, decide_eq_true_eq]
  exact .inl ⟨by omega, by omega⟩

/-- The byte a written byte stands for is that byte (R72). -/
theorem AsmArg.byte_toByte (b : Byte) : (AsmArg.byte b).toByte = b := by
  simp [AsmArg.byte, AsmArg.toByte]

end Sys2Proof
end

