-- ==== Sys2Proof/Laws/Exec.lean ====
section
/-! SUPPORT. What a step and an operation can be: the few shapes every meaning has. -/

namespace Sys2Proof.Machine

/-- Every operation is one of six: pure, the direct `decToBcd` (a free value above 99), one write, one read, `enableAlarm`,
`clearOS`; and every register of a single transaction lies in the map (R31, R34). -/
theorem exec_shape (i : Instr) :
    (∃ l, ∀ s, exec i s = pureOp l s) ∨
    (∃ x, i = .decToBcd x) ∨
    (∃ a v, a.toNat + v.length ≤ 0x12 ∧ ∀ s, exec i s = writeOp a v s) ∨
    (∃ a n f, a.toNat + n ≤ 0x12 ∧ ∀ s, exec i s = readOp a n f s) ∨
    (∃ m, i = .enableAlarm m) ∨ i = .clearOS := by
  cases i
  case decToBcd x => exact .inr (.inl ⟨x, rfl⟩)
  case enableAlarm m => exact .inr (.inr (.inr (.inr (.inl ⟨m, rfl⟩))))
  case clearOS => exact .inr (.inr (.inr (.inr (.inr rfl))))
  all_goals first
    | exact .inl ⟨_, fun _ => rfl⟩
    | exact .inr (.inr (.inl ⟨_, _, by decide, fun _ => rfl⟩))
    | exact .inr (.inr (.inl ⟨_, _, by simp [timePayload, alarmPayload], fun _ => rfl⟩))
    | exact .inr (.inr (.inr (.inl ⟨_, _, _, by decide, fun _ => rfl⟩)))

/-- Everything a step that answers a next state can have been. -/
theorem step_cases {s t : State} (h : step s = .next t) :
    (s.inbox = [] ∧ t = s) ∨
    (∃ w rest i, s.inbox = .command w :: rest ∧ decode w = .ok i ∧ exec i (s.accept w rest) = .next t) ∨
    (∃ w rest e, s.inbox = .command w :: rest ∧ decode w = .error e ∧ t = (s.accept w rest).illegalCommand) ∨
    (∃ v rest, s.inbox = .idle v :: rest ∧ t = { s with inbox := rest }.environmentMoves v) ∨
    (∃ v rest, s.inbox = .powerInterruption v :: rest ∧ t = { s with inbox := rest }.powerInterruption v) ∨
    (∃ f rest, s.inbox = .setFailure f :: rest ∧ t = { s with inbox := rest, failure := f }) := by
  unfold step at h
  split at h
  case h_1 hi =>
    injection h with h
    exact .inl ⟨hi, h.symm⟩
  case h_2 w rest hi =>
    split at h
    case h_1 i hd => exact .inr (.inl ⟨w, rest, i, hi, hd, h⟩)
    case h_2 e hd =>
      injection h with h
      exact .inr (.inr (.inl ⟨w, rest, e, hi, hd, h.symm⟩))
  case h_3 v rest hi =>
    injection h with h
    exact .inr (.inr (.inr (.inl ⟨v, rest, hi, h.symm⟩)))
  case h_4 v rest hi =>
    injection h with h
    exact .inr (.inr (.inr (.inr (.inl ⟨v, rest, hi, h.symm⟩))))
  case h_5 f rest hi =>
    injection h with h
    exact .inr (.inr (.inr (.inr (.inr ⟨f, rest, hi, h.symm⟩))))

end Sys2Proof.Machine
end

