-- ==== Sys2Proof/Laws/PerInstr.lean ====
section
/-! SUPPORT. What holds of every instruction as syntax, one lemma per constructor. -/

namespace Sys2Proof.Laws

/-- Every instruction, as it is written, passes the checks of R72: every byte is a legal operand (R65). -/
def WellFormed.Statement (i : Instr) : Prop := i.wellFormed = true

/-- Decoding the command record of an instruction gives the instruction back, and its opcode is one of the 27 (R62, R66). -/
def CommandDecodes.Statement (i : Instr) : Prop := decodeCommand i.command = .ok i ∧ i.opcode ∈ opcodes

/-- A call whose operands are all written bytes is well formed when their number is right. -/
theorem wellFormed_of_bytes (m : String) (l : List Byte) (h : operandCount m = some l.length) :
    AsmCall.wellFormed ⟨m, l.map AsmArg.byte⟩ = true := by
  have legal : ∀ (l : List Byte) (k : Nat), legalOperands m k (l.map AsmArg.byte) = true := by
    intro l
    induction l with
    | nil => intro k; rfl
    | cons b l ih => intro k; simp [legalOperands, AsmArg.byte_legal, ih]
  simp [AsmCall.wellFormed, h, legal]

theorem WellFormed.decToBcd (x0 : Byte) : WellFormed.Statement (.decToBcd x0) :=
  wellFormed_of_bytes "decToBcd" [x0] rfl
theorem CommandDecodes.decToBcd (x0 : Byte) : CommandDecodes.Statement (.decToBcd x0) :=
  ⟨rfl, by simp [Instr.opcode, opcodes]⟩

theorem WellFormed.bcdToDec (x0 : Byte) : WellFormed.Statement (.bcdToDec x0) :=
  wellFormed_of_bytes "bcdToDec" [x0] rfl
theorem CommandDecodes.bcdToDec (x0 : Byte) : CommandDecodes.Statement (.bcdToDec x0) :=
  ⟨rfl, by simp [Instr.opcode, opcodes]⟩

theorem WellFormed.setTime (x0 x1 x2 x3 x4 x5 x6 : Byte) : WellFormed.Statement (.setTime x0 x1 x2 x3 x4 x5 x6) :=
  wellFormed_of_bytes "setTime" [x0, x1, x2, x3, x4, x5, x6] rfl
theorem CommandDecodes.setTime (x0 x1 x2 x3 x4 x5 x6 : Byte) : CommandDecodes.Statement (.setTime x0 x1 x2 x3 x4 x5 x6) :=
  ⟨rfl, by simp [Instr.opcode, opcodes]⟩

theorem WellFormed.getTime : WellFormed.Statement .getTime :=
  wellFormed_of_bytes "getTime" [] rfl
theorem CommandDecodes.getTime : CommandDecodes.Statement .getTime :=
  ⟨rfl, by simp [Instr.opcode, opcodes]⟩

theorem WellFormed.setAlarm (x0 x1 x2 x3 x4 : Byte) : WellFormed.Statement (.setAlarm x0 x1 x2 x3 x4) :=
  wellFormed_of_bytes "setAlarm" [x0, x1, x2, x3, x4] rfl
theorem CommandDecodes.setAlarm (x0 x1 x2 x3 x4 : Byte) : CommandDecodes.Statement (.setAlarm x0 x1 x2 x3 x4) :=
  ⟨rfl, by simp [Instr.opcode, opcodes]⟩

theorem WellFormed.enableAlarm (x0 : Byte) : WellFormed.Statement (.enableAlarm x0) :=
  wellFormed_of_bytes "enableAlarm" [x0] rfl
theorem CommandDecodes.enableAlarm (x0 : Byte) : CommandDecodes.Statement (.enableAlarm x0) :=
  ⟨rfl, by simp [Instr.opcode, opcodes]⟩

theorem WellFormed.setTimer (x0 x1 : Byte) : WellFormed.Statement (.setTimer x0 x1) :=
  wellFormed_of_bytes "setTimer" [x0, x1] rfl
theorem CommandDecodes.setTimer (x0 x1 : Byte) : CommandDecodes.Statement (.setTimer x0 x1) :=
  ⟨rfl, by simp [Instr.opcode, opcodes]⟩

theorem WellFormed.setTimerMode (x0 : Byte) : WellFormed.Statement (.setTimerMode x0) :=
  wellFormed_of_bytes "setTimerMode" [x0] rfl
theorem CommandDecodes.setTimerMode (x0 : Byte) : CommandDecodes.Statement (.setTimerMode x0) :=
  ⟨rfl, by simp [Instr.opcode, opcodes]⟩

theorem WellFormed.setTimerValue (x0 : Byte) : WellFormed.Statement (.setTimerValue x0) :=
  wellFormed_of_bytes "setTimerValue" [x0] rfl
theorem CommandDecodes.setTimerValue (x0 : Byte) : CommandDecodes.Statement (.setTimerValue x0) :=
  ⟨rfl, by simp [Instr.opcode, opcodes]⟩

theorem WellFormed.getTimerMode : WellFormed.Statement .getTimerMode :=
  wellFormed_of_bytes "getTimerMode" [] rfl
theorem CommandDecodes.getTimerMode : CommandDecodes.Statement .getTimerMode :=
  ⟨rfl, by simp [Instr.opcode, opcodes]⟩

theorem WellFormed.getTimerValue : WellFormed.Statement .getTimerValue :=
  wellFormed_of_bytes "getTimerValue" [] rfl
theorem CommandDecodes.getTimerValue : CommandDecodes.Statement .getTimerValue :=
  ⟨rfl, by simp [Instr.opcode, opcodes]⟩

theorem WellFormed.packTimerMode (x0 x1 x2 x3 : Byte) : WellFormed.Statement (.packTimerMode x0 x1 x2 x3) :=
  wellFormed_of_bytes "packTimerMode" [x0, x1, x2, x3] rfl
theorem CommandDecodes.packTimerMode (x0 x1 x2 x3 : Byte) : CommandDecodes.Statement (.packTimerMode x0 x1 x2 x3) :=
  ⟨rfl, by simp [Instr.opcode, opcodes]⟩

theorem WellFormed.unpackTimerMode (x0 : Byte) : WellFormed.Statement (.unpackTimerMode x0) :=
  wellFormed_of_bytes "unpackTimerMode" [x0] rfl
theorem CommandDecodes.unpackTimerMode (x0 : Byte) : CommandDecodes.Statement (.unpackTimerMode x0) :=
  ⟨rfl, by simp [Instr.opcode, opcodes]⟩

theorem WellFormed.setOffset (x0 x1 : Byte) : WellFormed.Statement (.setOffset x0 x1) :=
  wellFormed_of_bytes "setOffset" [x0, x1] rfl
theorem CommandDecodes.setOffset (x0 x1 : Byte) : CommandDecodes.Statement (.setOffset x0 x1) :=
  ⟨rfl, by simp [Instr.opcode, opcodes]⟩

theorem WellFormed.getOffset : WellFormed.Statement .getOffset :=
  wellFormed_of_bytes "getOffset" [] rfl
theorem CommandDecodes.getOffset : CommandDecodes.Statement .getOffset :=
  ⟨rfl, by simp [Instr.opcode, opcodes]⟩

theorem WellFormed.setControl1 (x0 : Byte) : WellFormed.Statement (.setControl1 x0) :=
  wellFormed_of_bytes "setControl1" [x0] rfl
theorem CommandDecodes.setControl1 (x0 : Byte) : CommandDecodes.Statement (.setControl1 x0) :=
  ⟨rfl, by simp [Instr.opcode, opcodes]⟩

theorem WellFormed.getControl1 : WellFormed.Statement .getControl1 :=
  wellFormed_of_bytes "getControl1" [] rfl
theorem CommandDecodes.getControl1 : CommandDecodes.Statement .getControl1 :=
  ⟨rfl, by simp [Instr.opcode, opcodes]⟩

theorem WellFormed.setControl2 (x0 : Byte) : WellFormed.Statement (.setControl2 x0) :=
  wellFormed_of_bytes "setControl2" [x0] rfl
theorem CommandDecodes.setControl2 (x0 : Byte) : CommandDecodes.Statement (.setControl2 x0) :=
  ⟨rfl, by simp [Instr.opcode, opcodes]⟩

theorem WellFormed.getControl2 : WellFormed.Statement .getControl2 :=
  wellFormed_of_bytes "getControl2" [] rfl
theorem CommandDecodes.getControl2 : CommandDecodes.Statement .getControl2 :=
  ⟨rfl, by simp [Instr.opcode, opcodes]⟩

theorem WellFormed.setRam (x0 : Byte) : WellFormed.Statement (.setRam x0) :=
  wellFormed_of_bytes "setRam" [x0] rfl
theorem CommandDecodes.setRam (x0 : Byte) : CommandDecodes.Statement (.setRam x0) :=
  ⟨rfl, by simp [Instr.opcode, opcodes]⟩

theorem WellFormed.getRam : WellFormed.Statement .getRam :=
  wellFormed_of_bytes "getRam" [] rfl
theorem CommandDecodes.getRam : CommandDecodes.Statement .getRam :=
  ⟨rfl, by simp [Instr.opcode, opcodes]⟩

theorem WellFormed.getOS : WellFormed.Statement .getOS :=
  wellFormed_of_bytes "getOS" [] rfl
theorem CommandDecodes.getOS : CommandDecodes.Statement .getOS :=
  ⟨rfl, by simp [Instr.opcode, opcodes]⟩

theorem WellFormed.clearOS : WellFormed.Statement .clearOS :=
  wellFormed_of_bytes "clearOS" [] rfl
theorem CommandDecodes.clearOS : CommandDecodes.Statement .clearOS :=
  ⟨rfl, by simp [Instr.opcode, opcodes]⟩

theorem WellFormed.packControl1 (x0 x1 x2 x3 x4 x5 : Byte) : WellFormed.Statement (.packControl1 x0 x1 x2 x3 x4 x5) :=
  wellFormed_of_bytes "packControl1" [x0, x1, x2, x3, x4, x5] rfl
theorem CommandDecodes.packControl1 (x0 x1 x2 x3 x4 x5 : Byte) : CommandDecodes.Statement (.packControl1 x0 x1 x2 x3 x4 x5) :=
  ⟨rfl, by simp [Instr.opcode, opcodes]⟩

theorem WellFormed.unpackControl1 (x0 : Byte) : WellFormed.Statement (.unpackControl1 x0) :=
  wellFormed_of_bytes "unpackControl1" [x0] rfl
theorem CommandDecodes.unpackControl1 (x0 : Byte) : CommandDecodes.Statement (.unpackControl1 x0) :=
  ⟨rfl, by simp [Instr.opcode, opcodes]⟩

theorem WellFormed.packControl2 (x0 x1 x2 x3 x4 x5 : Byte) : WellFormed.Statement (.packControl2 x0 x1 x2 x3 x4 x5) :=
  wellFormed_of_bytes "packControl2" [x0, x1, x2, x3, x4, x5] rfl
theorem CommandDecodes.packControl2 (x0 x1 x2 x3 x4 x5 : Byte) : CommandDecodes.Statement (.packControl2 x0 x1 x2 x3 x4 x5) :=
  ⟨rfl, by simp [Instr.opcode, opcodes]⟩

theorem WellFormed.unpackControl2 (x0 : Byte) : WellFormed.Statement (.unpackControl2 x0) :=
  wellFormed_of_bytes "unpackControl2" [x0] rfl
theorem CommandDecodes.unpackControl2 (x0 : Byte) : CommandDecodes.Statement (.unpackControl2 x0) :=
  ⟨rfl, by simp [Instr.opcode, opcodes]⟩

/-- Every instruction is well formed (R65, R72). -/
theorem instr_wellFormed (i : Instr) : i.wellFormed = true := by
  cases i
  case decToBcd => exact WellFormed.decToBcd _
  case bcdToDec => exact WellFormed.bcdToDec _
  case setTime => exact WellFormed.setTime _ _ _ _ _ _ _
  case getTime => exact WellFormed.getTime
  case setAlarm => exact WellFormed.setAlarm _ _ _ _ _
  case enableAlarm => exact WellFormed.enableAlarm _
  case setTimer => exact WellFormed.setTimer _ _
  case setTimerMode => exact WellFormed.setTimerMode _
  case setTimerValue => exact WellFormed.setTimerValue _
  case getTimerMode => exact WellFormed.getTimerMode
  case getTimerValue => exact WellFormed.getTimerValue
  case packTimerMode => exact WellFormed.packTimerMode _ _ _ _
  case unpackTimerMode => exact WellFormed.unpackTimerMode _
  case setOffset => exact WellFormed.setOffset _ _
  case getOffset => exact WellFormed.getOffset
  case setControl1 => exact WellFormed.setControl1 _
  case getControl1 => exact WellFormed.getControl1
  case setControl2 => exact WellFormed.setControl2 _
  case getControl2 => exact WellFormed.getControl2
  case setRam => exact WellFormed.setRam _
  case getRam => exact WellFormed.getRam
  case getOS => exact WellFormed.getOS
  case clearOS => exact WellFormed.clearOS
  case packControl1 => exact WellFormed.packControl1 _ _ _ _ _ _
  case unpackControl1 => exact WellFormed.unpackControl1 _
  case packControl2 => exact WellFormed.packControl2 _ _ _ _ _ _
  case unpackControl2 => exact WellFormed.unpackControl2 _

end Sys2Proof.Laws
end

