-- ==== Sys2Proof/Tests/Slice0.lean ====
section
/-! SUPPORT. The model's own tests. Expected values are the spec's (spec/95_test_vectors.md, spec/30_encoding.md R74 and the
examples of the operation rules), not the model's; and, for every statement with hypotheses, a state and operands that meet
them. -/

namespace Sys2Proof.Tests

open Sys2Proof.Machine

/-! ### WellFormed: each check refuses an ill-formed written command (R72) -/


theorem test_wf_accepts_setAlarm_with_a_weekday_name : AsmCall.wellFormed ⟨"setAlarm", [.num 30, .num 15, .num 8, .num 5, .weekday .wednesday]⟩ = true := by decide
theorem test_wf_refuses_unknown_mnemonic : AsmCall.wellFormed ⟨"getAlarm", []⟩ = false := by decide
theorem test_wf_refuses_wrong_operand_count : AsmCall.wellFormed ⟨"setTimer", [.num 60]⟩ = false := by decide
theorem test_wf_refuses_number_above_a_byte : AsmCall.wellFormed ⟨"setRam", [.num 256]⟩ = false := by decide
theorem test_wf_refuses_negative_number_elsewhere : AsmCall.wellFormed ⟨"setRam", [.num (-1)]⟩ = false := by decide
theorem test_wf_refuses_negative_offset_below_a_byte : AsmCall.wellFormed ⟨"setOffset", [.num 1, .num (-129)]⟩ = false := by decide
theorem test_wf_refuses_weekday_name_elsewhere : AsmCall.wellFormed ⟨"setRam", [.weekday .sunday]⟩ = false := by decide
theorem test_assemble_property_4 : (assemble ⟨"setAlarm", [.num 30, .num 15, .num 8, .num 5, .weekday .wednesday]⟩).map encode =
    some 0x201E0F0805030000 := by decide
theorem test_assemble_property_7 : (assemble ⟨"setOffset", [.num 1, .num (-10)]⟩).map encode = some 0x4001F60000000000 := by decide

/-! ### Decoding: one word of every constructor, written out from the spec -/

theorem test_decode_decToBcd : decodeTableWord 64 0x012D000000000000 = some (.decToBcd 45) ∧ encode (.decToBcd 45) = 0x012D000000000000 := by decide
theorem test_decode_bcdToDec : decodeTableWord 64 0x0245000000000000 = some (.bcdToDec 0x45) ∧ encode (.bcdToDec 0x45) = 0x0245000000000000 := by decide
theorem test_decode_setTime : decodeTableWord 64 0x101E3B171F060C1A = some (.setTime 30 59 23 31 6 12 26) ∧ encode (.setTime 30 59 23 31 6 12 26) = 0x101E3B171F060C1A := by decide
theorem test_decode_getTime : decodeTableWord 64 0x1100000000000000 = some (.getTime) ∧ encode (.getTime) = 0x1100000000000000 := by decide
theorem test_decode_setAlarm : decodeTableWord 64 0x201E0F0805030000 = some (.setAlarm 30 15 8 5 3) ∧ encode (.setAlarm 30 15 8 5 3) = 0x201E0F0805030000 := by decide
theorem test_decode_enableAlarm : decodeTableWord 64 0x2101000000000000 = some (.enableAlarm 1) ∧ encode (.enableAlarm 1) = 0x2101000000000000 := by decide
theorem test_decode_setTimer : decodeTableWord 64 0x303C160000000000 = some (.setTimer 60 0x16) ∧ encode (.setTimer 60 0x16) = 0x303C160000000000 := by decide
theorem test_decode_setTimerMode : decodeTableWord 64 0x3107000000000000 = some (.setTimerMode 7) ∧ encode (.setTimerMode 7) = 0x3107000000000000 := by decide
theorem test_decode_setTimerValue : decodeTableWord 64 0x32FF000000000000 = some (.setTimerValue 0xFF) ∧ encode (.setTimerValue 0xFF) = 0x32FF000000000000 := by decide
theorem test_decode_getTimerMode : decodeTableWord 64 0x3300000000000000 = some (.getTimerMode) ∧ encode (.getTimerMode) = 0x3300000000000000 := by decide
theorem test_decode_getTimerValue : decodeTableWord 64 0x3400000000000000 = some (.getTimerValue) ∧ encode (.getTimerValue) = 0x3400000000000000 := by decide
theorem test_decode_packTimerMode : decodeTableWord 64 0x350302FE07000000 = some (.packTimerMode 3 2 254 7) ∧ encode (.packTimerMode 3 2 254 7) = 0x350302FE07000000 := by decide
theorem test_decode_unpackTimerMode : decodeTableWord 64 0x3616000000000000 = some (.unpackTimerMode 0x16) ∧ encode (.unpackTimerMode 0x16) = 0x3616000000000000 := by decide
theorem test_decode_setOffset : decodeTableWord 64 0x4001F60000000000 = some (.setOffset 1 0xF6) ∧ encode (.setOffset 1 0xF6) = 0x4001F60000000000 := by decide
theorem test_decode_getOffset : decodeTableWord 64 0x4100000000000000 = some (.getOffset) ∧ encode (.getOffset) = 0x4100000000000000 := by decide
theorem test_decode_setControl1 : decodeTableWord 64 0x4201000000000000 = some (.setControl1 1) ∧ encode (.setControl1 1) = 0x4201000000000000 := by decide
theorem test_decode_getControl1 : decodeTableWord 64 0x4300000000000000 = some (.getControl1) ∧ encode (.getControl1) = 0x4300000000000000 := by decide
theorem test_decode_setControl2 : decodeTableWord 64 0x4480000000000000 = some (.setControl2 0x80) ∧ encode (.setControl2 0x80) = 0x4480000000000000 := by decide
theorem test_decode_getControl2 : decodeTableWord 64 0x4500000000000000 = some (.getControl2) ∧ encode (.getControl2) = 0x4500000000000000 := by decide
theorem test_decode_setRam : decodeTableWord 64 0x46A5000000000000 = some (.setRam 0xA5) ∧ encode (.setRam 0xA5) = 0x46A5000000000000 := by decide
theorem test_decode_getRam : decodeTableWord 64 0x4700000000000000 = some (.getRam) ∧ encode (.getRam) = 0x4700000000000000 := by decide
theorem test_decode_getOS : decodeTableWord 64 0x4800000000000000 = some (.getOS) ∧ encode (.getOS) = 0x4800000000000000 := by decide
theorem test_decode_clearOS : decodeTableWord 64 0x4900000000000000 = some (.clearOS) ∧ encode (.clearOS) = 0x4900000000000000 := by decide
theorem test_decode_packControl1 : decodeTableWord 64 0x4A00010001010000 = some (.packControl1 0 1 0 1 1 0) ∧ encode (.packControl1 0 1 0 1 1 0) = 0x4A00010001010000 := by decide
theorem test_decode_unpackControl1 : decodeTableWord 64 0x4B26000000000000 = some (.unpackControl1 0x26) ∧ encode (.unpackControl1 0x26) = 0x4B26000000000000 := by decide
theorem test_decode_packControl2 : decodeTableWord 64 0x4C00000100000900 = some (.packControl2 0 0 1 0 0 9) ∧ encode (.packControl2 0 0 1 0 0 9) = 0x4C00000100000900 := by decide
theorem test_decode_unpackControl2 : decodeTableWord 64 0x4DC8000000000000 = some (.unpackControl2 0xC8) ∧ encode (.unpackControl2 0xC8) = 0x4DC8000000000000 := by decide
theorem test_decode_refuses_illegal_0 : decodeTableWord 64 0x0000000000000000 = none := by decide
theorem test_decode_refuses_illegal_1 : decodeTableWord 64 0x0300000000000000 = none := by decide
theorem test_decode_refuses_illegal_2 : decodeTableWord 64 0x12FFFFFFFFFFFFFF = none := by decide
theorem test_decode_refuses_illegal_3 : decodeTableWord 64 0x4E00000000000000 = none := by decide
theorem test_decode_refuses_illegal_4 : decodeTableWord 64 0x7E01020304050607 = none := by decide
theorem test_decode_refuses_illegal_5 : decodeTableWord 64 0xFF00000000000000 = none := by decide
theorem test_decode_ignores_unnamed_operand_bytes : decodeTableWord 64 0x46A5FFFFFFFFFFFF = some (.setRam 0xA5) := by decide

/-! ### One step on a small state, by the vectors of spec/95_test_vectors.md -/

/-- A device whose registers from `a` on hold `bytes`, the others as at power-up. -/
def deviceWith (a : Nat) (bytes : List Byte) : State := { State.reset with regs := Memory.writes [] a bytes }

/-- The transport's code of the vectors of section 2.9. -/
def busErr2 : BusErr := ⟨0x02, by decide⟩

/-- A device whose Seconds hold `0xC5`, on a bus that fails every transaction (P6). -/
def failingBus : State := { deviceWith 0x04 [0xC5] with failure := some busErr2 }

/-- A device whose transport answers the next transactions so. -/
def scripted (answers : List Answer) : State := { deviceWith 0x04 [0xC5] with script := answers.map fun x => ⟨[], x⟩ }

/-- One command of the host: the response word and `n` registers from `a` on afterwards. -/
def command (s : State) (w a n : Nat) : Option (Word64 × List Byte) :=
  match step (s.withFetchWord 64 w) with
  | .next t => some (t.response, t.regs.reads a n)
  | _ => none

/-- One command of the host: the transactions it issued. -/
def transactions (s : State) (w : Nat) : Option (List Transaction) :=
  match step (s.withFetchWord 64 w) with
  | .next t => some t.trace
  | _ => none

theorem test_decToBcd_45 : command State.reset 0x012D000000000000 0x0 0 = some (0x0045000000000000, []) := by decide
theorem test_decToBcd_99 : command State.reset 0x0163000000000000 0x0 0 = some (0x0099000000000000, []) := by decide
theorem test_decToBcd_100_is_the_free_value : (match step (State.reset.withFetchWord 64 0x0164000000000000) with
    | .next t => t.status = 0x00 ∧ t.res[0] = Config.draw8 0 ∧ t.draws = 1
    | _ => False) := ⟨rfl, rfl, rfl⟩
theorem test_bcdToDec_45 : command State.reset 0x0245000000000000 0x0 0 = some (0x002D000000000000, []) := by decide
theorem test_bcdToDec_FF_is_165 : command State.reset 0x02FF000000000000 0x0 0 = some (0x00A5000000000000, []) := by decide
theorem test_setTime_clamps : command State.reset 0x104B0A0A0A090A0A 0x4 7 = some (0x0000000000000000, [0x00, 0x10, 0x10, 0x10, 0x00, 0x10, 0x10]) := by decide
theorem test_setTime_at_the_maxima : command State.reset 0x103B3B171F060C63 0x4 7 = some (0x0000000000000000, [0x59, 0x59, 0x23, 0x31, 0x06, 0x12, 0x99]) := by decide
theorem test_getTime_all_ones : command (deviceWith 0x04 [0xFF, 0xFF, 0xFF, 0xFF, 0xFF, 0xFF, 0xFF]) 0x1100000000000000 0x0 0 = some (0x0055552D2D071955, []) := by decide
theorem test_getTime_unused_bits : command (deviceWith 0x04 [0x3A, 0x80, 0x40, 0xC1, 0x0F, 0x32, 0x85]) 0x1100000000000000 0x0 0 = some (0x0028000001070C05, []) := by decide
theorem test_setAlarm_property_4 : command State.reset 0x201E0F0805030000 0xb 5 = some (0x0000000000000000, [0xB0, 0x95, 0x88, 0x05, 0x83]) := by decide
theorem test_setAlarm_clamps : command State.reset 0x203C3C1820070000 0xb 5 = some (0x0000000000000000, [0x80, 0x80, 0x80, 0x00, 0x80]) := by decide
theorem test_enableAlarm_property_5 : command State.reset 0x2101000000000000 0xb 5 = some (0x0000000000000000, [0x00, 0x80, 0x80, 0x80, 0x80]) := by decide
theorem test_enableAlarm_without_the_quirk : command { deviceWith 0x0B [0xB0, 0x95, 0x88, 0x05, 0x83] with alarmEnableClobber := false } 0x2116000000000000 0xb 5 = some (0x0000000000000000, [0xB0, 0x15, 0x08, 0x85, 0x03]) := by decide
theorem test_setTimer : command State.reset 0x303C160000000000 0x10 2 = some (0x0000000000000000, [0x3C, 0x16]) := by decide
theorem test_setTimerMode : command State.reset 0x31E0000000000000 0x10 2 = some (0x0000000000000000, [0x00, 0xE0]) := by decide
theorem test_setTimerValue : command State.reset 0x32FF000000000000 0x10 2 = some (0x0000000000000000, [0xFF, 0x00]) := by decide
theorem test_getTimerValue : command (deviceWith 0x10 [0x3C, 0x16]) 0x3400000000000000 0x0 0 = some (0x003C000000000000, []) := by decide
theorem test_getTimerMode : command (deviceWith 0x10 [0x3C, 0x16]) 0x3300000000000000 0x0 0 = some (0x0016000000000000, []) := by decide
theorem test_packTimerMode_ignores_high_bits : command State.reset 0x350302FE07000000 0x0 0 = some (0x0019000000000000, []) := by decide
theorem test_packTimerMode : command State.reset 0x3500010102000000 0x0 0 = some (0x0016000000000000, []) := by decide
theorem test_unpackTimerMode : command State.reset 0x3616000000000000 0x0 0 = some (0x0000010102000000, []) := by decide
theorem test_unpackTimerMode_0D : command State.reset 0x360D000000000000 0x0 0 = some (0x0001000101000000, []) := by decide
theorem test_setOffset_property_7 : command State.reset 0x4001F60000000000 0x2 2 = some (0x0000000000000000, [0xB6, 0x00]) := by decide
theorem test_setOffset_aliases : command (deviceWith 0x03 [0xA5]) 0x4002DF0000000000 0x2 2 = some (0x0000000000000000, [0x1F, 0xA5]) := by decide
theorem test_getOffset_property_7 : command (deviceWith 0x02 [0xB6]) 0x4100000000000000 0x0 0 = some (0x0001360000000000, []) := by decide
theorem test_getOffset_drops_bit_6 : command (deviceWith 0x02 [0x7F]) 0x4100000000000000 0x0 0 = some (0x00003F0000000000, []) := by decide
theorem test_setControl1 : command State.reset 0x42FF000000000000 0x0 2 = some (0x0000000000000000, [0xFF, 0x00]) := by decide
theorem test_getControl1 : command (deviceWith 0x00 [0x26]) 0x4300000000000000 0x0 0 = some (0x0026000000000000, []) := by decide
theorem test_setControl2 : command State.reset 0x4480000000000000 0x0 3 = some (0x0000000000000000, [0x00, 0x80, 0x00]) := by decide
theorem test_getControl2 : command (deviceWith 0x01 [0xC8]) 0x4500000000000000 0x0 0 = some (0x00C8000000000000, []) := by decide
theorem test_setRam : command State.reset 0x46A5000000000000 0x2 3 = some (0x0000000000000000, [0x00, 0xA5, 0x80]) := by decide
theorem test_getRam : command (deviceWith 0x03 [0xA5]) 0x4700000000000000 0x0 0 = some (0x00A5000000000000, []) := by decide
theorem test_getOS_set : command (deviceWith 0x04 [0xC5]) 0x4800000000000000 0x0 0 = some (0x0001000000000000, []) := by decide
theorem test_getOS_clear : command (deviceWith 0x04 [0x45]) 0x4800000000000000 0x0 0 = some (0x0000000000000000, []) := by decide
theorem test_clearOS_property_6 : command (deviceWith 0x04 [0xC5, 0x30]) 0x4900000000000000 0x4 2 = some (0x0000000000000000, [0x45, 0x30]) := by decide
theorem test_clearOS_literal_writes_the_free_value : (match step ({ deviceWith 0x04 [0xC5] with clearosLiteral := true }.withFetchWord 64 0x4900000000000000) with
    | .next t => t.status = 0x00 ∧ t.trace =
        [.write 0x04 [] 0x00, .rawRead (Config.draw8 0), .write 0x04 [Config.draw8 0 &&& 0x7F] 0x00]
    | _ => False) := ⟨rfl, rfl⟩
theorem test_packControl1 : command State.reset 0x4A00010001010000 0x0 0 = some (0x0026000000000000, []) := by decide
theorem test_packControl1_all : command State.reset 0x4A01010101010100 0x0 0 = some (0x00B7000000000000, []) := by decide
theorem test_unpackControl1 : command State.reset 0x4B26000000000000 0x0 0 = some (0x0000010001010000, []) := by decide
theorem test_unpackControl1_drops_unused : command State.reset 0x4B48000000000000 0x0 0 = some (0x0000000000000000, []) := by decide
theorem test_packControl2 : command State.reset 0x4C00000100000900 0x0 0 = some (0x0021000000000000, []) := by decide
theorem test_packControl2_ends : command State.reset 0x4C01000000000700 0x0 0 = some (0x0087000000000000, []) := by decide
theorem test_unpackControl2 : command State.reset 0x4DC8000000000000 0x0 0 = some (0x0001010000010000, []) := by decide
theorem test_unpackControl2_87 : command State.reset 0x4D87000000000000 0x0 0 = some (0x0001000000000700, []) := by decide
theorem test_illegal_command : command (deviceWith 0x04 [0xC5]) 0x7E01020304050607 0x4 1 = some (0xFF00000000000000, [0xC5]) := by decide
theorem test_failing_bus_clearOS_attempts_only_the_read : transactions failingBus 0x4900000000000000 = some [.read 0x04 1 0x02 none] ∧
    command failingBus 0x4900000000000000 0x4 1 = some (0x0200000000000000, [0xC5]) := by decide
theorem test_failing_bus_leaves_pure_operations_alone : command failingBus 0x012D000000000000 0x4 1 = some (0x0045000000000000, [0xC5]) := by decide
theorem test_failed_write_after_read_of_clearOS : command (scripted [.done, .dataFails ⟨0x03, by decide⟩ 1]) 0x4900000000000000 0x4 1 = some (0x0300000000000000, [0x45]) ∧
    command (scripted [.done, .pointerFails ⟨0x03, by decide⟩]) 0x4900000000000000 0x4 1 = some (0x0300000000000000, [0xC5]) := by decide
theorem test_failed_write_stores_a_part : command (scripted [.dataFails busErr2 2]) 0x101E3B171F060C1A 0x4 4 = some (0x0200000000000000, [0x30, 0x59, 0x00, 0x00]) := by decide
theorem test_transport_never_completes : (match step ((scripted [.never]).withFetchWord 64 0x4800000000000000) with
    | .fault f => f = .transportNeverCompletes
    | _ => False) := rfl
theorem test_power_interruption_sets_OS : (match step { deviceWith 0x04 [0x45, 0x30] with inbox := [.powerInterruption []] } with
    | .next t => t.regs.reads 0x04 2 = [0xC5, 0x30]
    | _ => False) := rfl
theorem test_bus_frame : writeFrame 0x04 [0x45] = [0xA2, 0x04, 0x45] ∧ readFrame 0x04 [0xC5] = [0xA2, 0x04, 0xA3, 0xC5] := by decide
theorem test_reset_is_power_up_with_the_default_image : State.powerUp ([0, 0, 0, 0, 0x80] ++ List.replicate 13 0) true false = State.reset := by decide

/-! ### Witnesses: the hypotheses of every statement can be met together -/

/-- With the clobber quirk off. -/
def quirkOff : State := { deviceWith 0x0B [0xB0, 0x95, 0x88, 0x05, 0x83] with alarmEnableClobber := false }

/-- With the literal `clearOS`. -/
def literalOn : State := { deviceWith 0x04 [0xC5] with clearosLiteral := true }

/-- Every outcome of a first transaction occurs, over one device: success from the image and with given bytes, failure in
the address phase, failure in the data phase with nothing and with all of the longest payload stored, and none at all. -/
abbrev OutcomesOccur (on : List Answer → State) : Prop :=
  (on []).nextAnswer.succeeds = true ∧ (on []).nextAnswer = .done ∧
  (on [.doneGiving [0xFF]]).nextAnswer.succeeds = true ∧
  (on [.pointerFails busErr2]).nextAnswer.failure = some busErr2 ∧
  ((on [.dataFails busErr2 0]).nextAnswer.failure = some busErr2 ∧ (on [.dataFails busErr2 0]).nextAnswer.stored = 0) ∧
  ((on [.dataFails busErr2 7]).nextAnswer.failure = some busErr2 ∧ (on [.dataFails busErr2 7]).nextAnswer.stored = 7) ∧
  (on [.never]).nextAnswer = .never

/-- A device with its transport's next answers. -/
def withAnswers (s : State) (l : List Answer) : State := { s with script := l.map fun x => ⟨[], x⟩ }

theorem outcomesOccur : OutcomesOccur scripted := by decide

theorem witness_SetTimeWritesTheTimeRegisters : OutcomesOccur scripted := outcomesOccur
theorem witness_GetTimeDecodesTheTimeRegisters : OutcomesOccur scripted := outcomesOccur
theorem witness_SetAlarmWritesTheAlarmRegisters : OutcomesOccur scripted := outcomesOccur
theorem witness_TimerWritesMoveBytesUnchanged : OutcomesOccur scripted := outcomesOccur
theorem witness_TimerReadsReturnTheByte : OutcomesOccur scripted := outcomesOccur
theorem witness_SetOffsetWritesOneByte : OutcomesOccur scripted := outcomesOccur
theorem witness_GetOffsetSplitsTheByte : OutcomesOccur scripted := outcomesOccur
theorem witness_ControlWritesMoveTheByteUnchanged : OutcomesOccur scripted := outcomesOccur
theorem witness_ControlReadsReturnTheByte : OutcomesOccur scripted := outcomesOccur
theorem witness_GetOSReturnsBit7 : OutcomesOccur scripted := outcomesOccur
theorem witness_MemReadGivesTheRegisters : OutcomesOccur scripted := outcomesOccur
theorem witness_GetTimeResultsAreBounded : OutcomesOccur scripted := outcomesOccur
theorem witness_EnableAlarmClobbersTheValues : OutcomesOccur scripted ∧ (scripted [.never]).alarmEnableClobber = true := by decide
theorem witness_EnableAlarmWithoutTheQuirkKeepsTheValues : OutcomesOccur (withAnswers quirkOff) ∧ quirkOff.alarmEnableClobber = false := by decide
theorem witness_EnableAlarmCompletesWithoutTheQuirk : quirkOff.storing ∧ quirkOff.alarmEnableClobber = false := ⟨⟨rfl, rfl⟩, rfl⟩
theorem witness_QuirkLeavesNoOrderThatWorks : State.reset.alarmEnableClobber = true ∧ State.reset.nextAnswer.succeeds = true := by decide
theorem witness_ClearOSReadsThenWrites : OutcomesOccur scripted ∧ (scripted []).clearosLiteral = false := by decide
theorem witness_LiteralClearOSWritesAnyByte : OutcomesOccur (withAnswers literalOn) ∧ literalOn.clearosLiteral = true := by decide
theorem witness_ClearOSCompletes : literalOn.storing ∧ literalOn.clearosLiteral = true ∧ State.reset.storing ∧
    State.reset.clearosLiteral = false := ⟨⟨rfl, rfl⟩, rfl, ⟨rfl, rfl⟩, rfl⟩
theorem witness_OscillatorStopDetectedAndCleared : (deviceWith 0x04 [0x45]).storing ∧ (deviceWith 0x04 [0x45]).clearosLiteral = false := ⟨⟨rfl, rfl⟩, rfl⟩
theorem witness_ClearOSPutsTheOlderSecondsBack : let s := { deviceWith 0x04 [0xC5] with script := [⟨[], .done⟩, ⟨[⟨4, 0x46⟩], .done⟩] }
    s.clearosLiteral = false ∧ s.script = ⟨[], .done⟩ :: ⟨[⟨4, 0x46⟩], .done⟩ :: [] := ⟨rfl, rfl⟩
theorem witness_OpcodeAloneSelectsTheOperation : decode 0x4D00000000000000 = .ok (.unpackControl2 0) ∧ decode 0x0100000000000000 = .ok (.decToBcd 0) := by decide
theorem witness_EncodeOfDecodeKeepsTheUsedBits : decode 0x46A50000000000FF = .ok (.setRam 0xA5) ∧
    (0x46A5FF0000000000 : Word64) &&& (Instr.setRam 0xA5).usedBits =
      0x46A50000000000FF &&& (Instr.setRam 0xA5).usedBits := by decide
theorem witness_WorkedEncodings : (scripted [.doneGiving [0x30, 0x59, 0x23, 0x31, 0x06, 0x12, 0x26]]).nextAnswer =
      .doneGiving [0x30, 0x59, 0x23, 0x31, 0x06, 0x12, 0x26] ∧
    (State.reset.withFetchWord 64 0x7E01020304050607).inbox = .command 0x7E01020304050607 :: [] ∧
    (0x7E01020304050607 : Word64).extractLsb' 56 8 = 0x7E#8 := by decide
theorem witness_WrittenFormAssembles : (-128 : Int) ≤ -128 ∧ (-128 : Int) < 0 ∧ (-128 : Int) ≤ -1 ∧ (-1 : Int) < 0 := by decide
theorem witness_StepRunsTheDecodedCommand : (State.reset.withFetchWord 64 0x4900000000000000).inbox = .command 0x4900000000000000 :: [] ∧
    decode 0x4900000000000000 = .ok .clearOS := by decide
theorem witness_IllegalCommandChangesNothing : (State.reset.withFetchWord 64 0).inbox = .command 0 :: [] ∧ (0 : Word64).extractLsb' 56 8 ∉ opcodes := by decide
theorem witness_PowerInterruptionSetsOS : { State.reset with inbox := [.powerInterruption []] }.inbox = .powerInterruption [] :: [] ∧
    { State.reset with inbox := [.powerInterruption [⟨4, 0⟩, ⟨17, 1⟩]] }.inbox = .powerInterruption [⟨4, 0⟩, ⟨17, 1⟩] :: [] := by decide
theorem witness_BetweenCommandsOnlyTheEnvironmentMoves : State.reset.inbox = [] ∧ { State.reset with inbox := [.idle [⟨0, 1⟩]] }.inbox = .idle [⟨0, 1⟩] :: [] ∧
    { State.reset with inbox := [.idle [⟨17, 1⟩]] }.inbox = .idle [⟨17, 1⟩] :: [] := by decide

/-- A step and an operation that answer a next state. -/
abbrev StepAnswersNext : Prop :=
  (∃ t, step State.reset = .next t) ∧ (∃ t, step (State.reset.withFetchWord 64 0x46A5000000000000) = .next t) ∧
  (∃ t, exec (.setRam 0xA5) State.reset = .next t)

theorem stepAnswersNext : StepAnswersNext := ⟨⟨_, rfl⟩, ⟨_, rfl⟩, ⟨_, rfl⟩⟩

theorem witness_ConfigurationInputsNeverChange : StepAnswersNext ∧ (∀ m, Instr.setRam 0xA5 ≠ .enableAlarm m) ∧ Instr.setRam 0xA5 ≠ .clearOS := ⟨stepAnswersNext, nofun, nofun⟩
theorem witness_PowerUpHoldsTheGivenImage : (List.replicate 18 (0xFF : Byte)).length = 18 := by decide
theorem witness_CanonicalImagesThatReadAlikeAreEqual : Memory.wf [(0x03, 0xA5)] = true ∧ ∀ x, Memory.read [(0x03, 0xA5)] x = Memory.read [(0x03, 0xA5)] x := ⟨by decide, fun _ => rfl⟩
theorem witness_TransactionsAreTotallyOrdered : StepAnswersNext := stepAnswersNext
theorem witness_TransactionsFollowTheTable : StepAnswersNext := stepAnswersNext
theorem witness_DecToBcdPacksTheDigits : (0 : Byte).toNat ≤ 99 ∧ (99 : Byte).toNat ≤ 99 := by decide
theorem witness_DecToBcdAbove99IsAnyByte : (100 : Byte).toNat > 99 ∧ (255 : Byte).toNat > 99 := by decide
theorem witness_BcdRoundTrip : (99 : Byte).toNat ≤ 99 ∧ (bcdToDec 0x99).toNat ≤ 99 ∧ (bcdToDec 0x0F).toNat ≤ 99 := by decide
theorem witness_SetTimeGetTimeRoundTrip : State.reset.storing ∧ (59 : Byte).toNat ≤ 59 ∧ (23 : Byte).toNat ≤ 23 ∧ (31 : Byte).toNat ≤ 31 ∧
    (6 : Byte).toNat ≤ 6 ∧ (12 : Byte).toNat ≤ 12 ∧ (79 : Byte).toNat ≤ 99 ∧ (99 : Byte).toNat ≤ 99 := ⟨⟨rfl, rfl⟩, by decide⟩
theorem witness_SetTimeClearsOSAndClamps : (scripted []).nextAnswer.succeeds = true ∧ (60 : Byte).toNat > 59 ∧ (24 : Byte).toNat > 23 ∧ (32 : Byte).toNat > 31 ∧
    (7 : Byte).toNat > 6 ∧ (13 : Byte).toNat > 12 ∧ (100 : Byte).toNat > 99 := by decide
theorem witness_TimeIgnoresTheHourModeBit : State.reset.storing := ⟨rfl, rfl⟩
theorem witness_SetTimerIsValueThenMode : State.reset.storing := ⟨rfl, rfl⟩
theorem witness_OffsetRoundTripKeepsSixBits : State.reset.storing ∧ (-128 : Int) ≤ -33 ∧ (32 : Int) ≤ 127 := ⟨⟨rfl, rfl⟩, by decide⟩
theorem witness_AddressPhaseFailureReturnsStatusAndZeros : failingBus.script = [] ∧ failingBus.failure = some busErr2 ∧ usesBus .getOS = true ∧ usesBus (.decToBcd 45) = false := by decide

/-- A command that ends with `OK`, one with the transport's status and one that is illegal all answer a next state. -/
theorem witness_StatusIsTheFirstFailure :
    (∃ s t rest, s.inbox = .command 0x4800000000000000 :: rest ∧ step s = .next t ∧ t.status = 0x00) ∧
    (∃ s t rest, s.inbox = .command 0x4800000000000000 :: rest ∧ step s = .next t ∧ t.status = 0x02) ∧
    (∃ s t rest, s.inbox = .command 0x0000000000000000 :: rest ∧ step s = .next t ∧ t.status = 0xFF) :=
  ⟨⟨State.reset.withFetchWord 64 0x4800000000000000, _, [], rfl, rfl, rfl⟩,
    ⟨failingBus.withFetchWord 64 0x4800000000000000, _, [], rfl, rfl, rfl⟩,
    ⟨State.reset.withFetchWord 64 0, _, [], rfl, rfl, rfl⟩⟩

theorem witness_StepKeepsTheImageCanonical : (deviceWith 0x04 [0xC5]).regs.wf = true ∧ StepAnswersNext := ⟨by decide, stepAnswersNext⟩
theorem witness_FailureResultsAreZero : State.reset.failureIsZero ∧ (∃ t, step State.reset = .next t) ∧
    ∃ t, step (failingBus.withFetchWord 64 0x4800000000000000) = .next t ∧ t.status ≠ 0x00 := ⟨fun _ => rfl, ⟨_, rfl⟩, _, rfl, by decide⟩

/-- Two states that differ in record, response, pointer, inbox and trace and agree on the environment; a next state and a
stop from them. -/
theorem witness_BlockKeepsNoStateBetweenCommands :
    SameEnvironment (deviceWith 0x04 [0xC5])
      { deviceWith 0x04 [0xC5] with
        cmd := ⟨0x12, Seven.zero⟩, status := 0x02, ptr := 0x11, inbox := [.idle []], trace := [.rawRead 0x00] } ∧
    (∃ t, exec .getOS (deviceWith 0x04 [0xC5]) = .next t) ∧
    exec .getOS (scripted [.never]) = .fault .transportNeverCompletes :=
  ⟨⟨rfl, rfl, rfl, rfl, rfl, rfl⟩, ⟨_, rfl⟩, rfl⟩

theorem witness_StepCompletesUnlessTheTransportNeverDoes : State.reset.transportCompletes ∧ (scripted [.done, .pointerFails busErr2]).transportCompletes := by
  constructor <;> simp [State.transportCompletes, State.reset, scripted]
theorem witness_OnlyBusOperationsCanHang : (scripted [.never]).nextAnswer = .never ∧ usesBus .clearOS = true ∧ usesBus (.packControl2 0 0 0 0 0 0) = false := by decide

end Sys2Proof.Tests
end

section
/-! PROOFS. The statements of 00_scope.md: what a power-up state holds. -/

namespace Sys2Proof.Machine

/-- Reading back exactly the registers a payload was written to gives the payload (R45, R46, R48). -/
theorem Memory.reads_writes_same (m : Memory) (a : Nat) (v : List Byte) : (m.writes a v).reads a v.length = v := by
  refine List.ext_getElem (Memory.reads_length _ _ _) fun k hr hv => ?_
  rw [Memory.reads_getElem, Memory.read_writes_inside v m a k hv]

/-- The image built from 18 bytes is those bytes (R5, R38). -/
theorem Memory.image_ofImage {image : List Byte} (h : image.length = 18) : (Memory.ofImage image).image = image := by
  have htake : image.take 18 = image := List.take_of_length_le h.le
  rw [Memory.image, Memory.ofImage, htake, ← h]
  exact Memory.reads_writes_same [] Config.regLo image

@[simp] theorem State.powerUp_regs (image : List Byte) (c l : Bool) :
    (State.powerUp image c l).regs = Memory.ofImage image := rfl
@[simp] theorem State.powerUp_alarmEnableClobber (image : List Byte) (c l : Bool) :
    (State.powerUp image c l).alarmEnableClobber = c := rfl
@[simp] theorem State.powerUp_clearosLiteral (image : List Byte) (c l : Bool) :
    (State.powerUp image c l).clearosLiteral = l := rfl

/-- Settles O13: the 18 registers are read back as written, and writes inside the map keep the canonical form. -/
theorem powerUpHoldsTheGivenImage : Obligations.PowerUpHoldsTheGivenImage := by
  intro image c l hlen
  rw [State.powerUp_regs]
  exact ⟨Memory.image_ofImage hlen, Memory.wf_ofImage image,
    State.powerUp_alarmEnableClobber image c l, State.powerUp_clearosLiteral image c l⟩

end Sys2Proof.Machine
end

section
/-! PROOFS. The statements of 10_state.md: what a step keeps, what an operation may depend on, and which transactions it
issues. An operation is read as a small program of transactions (`BusProgram`), tied to the model by `exec_eq_run`; what
holds of every operation is then one induction over such programs. -/

namespace Sys2Proof.Machine

/-! ### One step, by the next input -/

theorem step_command {s : State} {w : Word64} {rest : List Input} {i : Instr}
    (hi : s.inbox = .command w :: rest) (hd : decode w = .ok i) : step s = exec i (s.accept w rest) := by
  simp [step, hi, hd]

theorem step_powerInterruption {s : State} {moves : List Move} {rest : List Input}
    (hi : s.inbox = .powerInterruption moves :: rest) :
    step s = .next ({ s with inbox := rest }.powerInterruption moves) := by
  simp [step, hi]

/-- Settles O7: the accepted state is the one with the word's bytes in `op` and `arg` and the input taken. -/
theorem stepRunsTheDecodedCommand : Obligations.StepRunsTheDecodedCommand :=
  fun _ _ _ _ hi hd => step_command hi hd

/-- Settles O11, by the fields of `State.reset`. -/
theorem configurationDefaults : Obligations.ConfigurationDefaults := ⟨rfl, rfl⟩

/-! ### A power interruption (R37) -/

theorem osFlag_setOsFlag (b : Byte) : osFlag (setOsFlag b) = 1 := by
  revert b
  decide

/-- A power interruption leaves Seconds as the environment left it, with OS set. -/
theorem State.powerInterruption_read_seconds (s : State) (moves : List Move) :
    (s.powerInterruption moves).regs.read 0x04 = setOsFlag ((s.regs.applyMoves moves).read 0x04) := by
  rw [State.powerInterruption_eq]
  exact Memory.read_write_same _ _ _

/-- A power interruption leaves every register but Seconds to the environment. -/
theorem State.powerInterruption_read_other (s : State) (moves : List Move) {x : Nat} (h : x ≠ 0x04) :
    (s.powerInterruption moves).regs.read x = (s.regs.applyMoves moves).read x := by
  rw [State.powerInterruption_eq]
  exact Memory.read_write_other _ _ h

/-- Settles O9: Seconds by `powerInterruption_read_seconds`, the rest of the image by `powerInterruption_read_other`. -/
theorem powerInterruptionSetsOS : Obligations.PowerInterruptionSetsOS := by
  constructor
  · intro s rest hi
    exact ⟨_, step_powerInterruption hi, State.powerInterruption_read_seconds _ [],
      fun _ => State.powerInterruption_read_other _ [], rfl, rfl, rfl, rfl, rfl, rfl, rfl, rfl, rfl⟩
  · intro s moves rest hi
    refine ⟨_, step_powerInterruption hi, ?_, fun _ => State.powerInterruption_read_other _ moves⟩
    rw [State.powerInterruption_read_seconds, osFlag_setOsFlag]

/-! ### The canonical form of the register image is unique -/

/-- A register below every entry of a canonical image reads as an unlisted one. -/
theorem Memory.read_of_lt_wfFrom {lo x : Nat} {m : Memory} (h : Memory.wfFrom lo m = true) (hx : x < lo) :
    m.read x = Memory.initByte x := by
  induction m generalizing lo with
  | nil => rfl
  | cons c m ih =>
    obtain ⟨k, b⟩ := c
    obtain ⟨hk, -, -, hm⟩ := Memory.wfFrom_cons.mp h
    rw [Memory.read_cons, if_neg (by omega)]
    exact ih hm (by omega)

/-- The first register a canonical image lists is listed by no image whose entries lie above it. -/
theorem Memory.read_head_ne_of_wfFrom {lo lo' k : Nat} {b : Byte} {m m' : Memory}
    (h : Memory.wfFrom lo ((k, b) :: m) = true) (h' : Memory.wfFrom lo' m' = true) (hk : k < lo') :
    Memory.read ((k, b) :: m) k ≠ m'.read k := by
  obtain ⟨-, -, hb, -⟩ := Memory.wfFrom_cons.mp h
  rwa [Memory.read_cons, if_pos rfl, Memory.read_of_lt_wfFrom h' hk]

theorem Memory.eq_of_read_eq {lo : Nat} {m m' : Memory} (h : Memory.wfFrom lo m = true)
    (h' : Memory.wfFrom lo m' = true) (hread : ∀ x, m.read x = m'.read x) : m = m' := by
  induction m generalizing lo m' with
  | nil =>
    cases m' with
    | nil => rfl
    | cons c' m' =>
      have hnil : Memory.wfFrom (c'.1 + 1) [] = true := rfl
      exact absurd (hread _).symm (Memory.read_head_ne_of_wfFrom h' hnil (Nat.lt_succ_self _))
  | cons c m ih =>
    obtain ⟨k, b⟩ := c
    cases m' with
    | nil =>
      have hnil : Memory.wfFrom (k + 1) [] = true := rfl
      exact absurd (hread k) (Memory.read_head_ne_of_wfFrom h hnil (Nat.lt_succ_self k))
    | cons c' m' =>
      obtain ⟨k', b'⟩ := c'
      obtain ⟨-, hk, hb, hm⟩ := Memory.wfFrom_cons.mp h
      obtain ⟨-, hk', hb', hm'⟩ := Memory.wfFrom_cons.mp h'
      rcases Nat.lt_trichotomy k k' with hlt | rfl | hgt
      · have habove := Memory.wfFrom_cons.mpr ⟨Nat.le_refl k', hk', hb', hm'⟩
        exact absurd (hread k) (Memory.read_head_ne_of_wfFrom h habove hlt)
      · have hbytes : b = b' := by simpa [Memory.read_cons] using hread k
        have htails : m = m' := ih hm hm' fun x => by
          by_cases hx : k = x
          · rw [Memory.read_of_lt_wfFrom hm (by omega), Memory.read_of_lt_wfFrom hm' (by omega)]
          · simpa [Memory.read_cons, hx] using hread x
        rw [hbytes, htails]
      · have habove := Memory.wfFrom_cons.mpr ⟨Nat.le_refl k, hk, hb, hm⟩
        exact absurd (hread k').symm (Memory.read_head_ne_of_wfFrom h' habove hgt)

/-- Settles O14, by `Memory.eq_of_read_eq`: the first entries of the two lists are for the same register. -/
theorem canonicalImagesThatReadAlikeAreEqual : Obligations.CanonicalImagesThatReadAlikeAreEqual :=
  fun _ _ => Memory.eq_of_read_eq

/-! ### Operations as programs of transactions -/

/-- What an operation does, one transaction or free value after the other. -/
inductive BusProgram where
  /-- The response `OK` with these results. -/
  | respond (l : List Byte)
  /-- One free value (R8), then the rest. -/
  | draw (next : Byte → BusProgram)
  /-- One `MemWrite` (R45), then the rest. -/
  | write (a : Byte) (v : List Byte) (next : BusProgram)
  /-- One `MemRead` (R46), then what is done with its bytes. -/
  | read (a : Byte) (n : Nat) (next : List Byte → BusProgram)
  /-- One `RawRead` (R47), then what is done with its byte. -/
  | rawRead (next : Byte → BusProgram)

/-- Running a program: each transaction is the model's, and a failing one ends the operation (`Tx.andThen`). -/
def BusProgram.run : BusProgram → State → Host.Outcome State Fault Refusal
  | .respond l, s => pureOp l s
  | .draw next, s => (next s.drawn).run s.drew
  | .write a v next, s => (memWrite a v s).andThen fun _ s1 => next.run s1
  | .read a n next, s => (memRead a n s).andThen fun d s1 => (next d).run s1
  | .rawRead next, s => (next s.drawn).run (s.drew.issued (.rawRead s.drawn))

/-- The program of an operation that is one write. -/
def BusProgram.writeOnly (a : Byte) (v : List Byte) : BusProgram := .write a v (.respond [])

/-- The program of an operation that is one read. -/
def BusProgram.readOnly (a : Byte) (n : Nat) (f : List Byte → List Byte) : BusProgram :=
  .read a n fun d => .respond (f d)

/-- The program of `decToBcd` (R81, R82). -/
def BusProgram.decToBcd (v : Byte) : BusProgram :=
  if v.toNat ≤ 99 then .respond [bcd v] else .draw fun x => .respond [x]

/-- The program of `enableAlarm` for each setting of `ALARM_ENABLE_CLOBBER` (R103, R104). -/
def BusProgram.enableAlarm (m : Byte) (clobber : Bool) : BusProgram :=
  if clobber then .writeOnly 0x0B (clobberPayload m)
  else .read 0x0B 5 fun d => .writeOnly 0x0B (preservingPayload m d)

/-- The program of `clearOS` for each setting of `CLEAROS_LITERAL` (R140, R141). -/
def BusProgram.clearOS (literal : Bool) : BusProgram :=
  if literal then .write 0x04 [] (.rawRead fun x => .writeOnly 0x04 [clearOsFlag x])
  else .read 0x04 1 fun d => .writeOnly 0x04 [clearOsFlag (byteAt d 0)]

/-- The program of an operation for each setting of the two configuration inputs. -/
def program (i : Instr) (clobber literal : Bool) : BusProgram :=
  match i with
  | .decToBcd v => .decToBcd v
  | .bcdToDec b => .respond [bcdToDec b]
  | .setTime a b c d e f g => .writeOnly 0x04 (timePayload a b c d e f g)
  | .getTime => .readOnly 0x04 7 timeResults
  | .setAlarm a b c d e => .writeOnly 0x0B (alarmPayload a b c d e)
  | .enableAlarm m => .enableAlarm m clobber
  | .setTimer v m => .writeOnly 0x10 [v, m]
  | .setTimerMode m => .writeOnly 0x11 [m]
  | .setTimerValue v => .writeOnly 0x10 [v]
  | .getTimerMode => .readOnly 0x11 1 fun d => [byteAt d 0]
  | .getTimerValue => .readOnly 0x10 1 fun d => [byteAt d 0]
  | .packTimerMode a b c d => .respond [packTimer a b c d]
  | .unpackTimerMode m => .respond (unpackTimer m)
  | .setOffset m o => .writeOnly 0x02 [packOffset m o]
  | .getOffset => .readOnly 0x02 1 fun d => [offsetMode (byteAt d 0), offsetValue (byteAt d 0)]
  | .setControl1 b => .writeOnly 0x00 [b]
  | .getControl1 => .readOnly 0x00 1 fun d => [byteAt d 0]
  | .setControl2 b => .writeOnly 0x01 [b]
  | .getControl2 => .readOnly 0x01 1 fun d => [byteAt d 0]
  | .setRam b => .writeOnly 0x03 [b]
  | .getRam => .readOnly 0x03 1 fun d => [byteAt d 0]
  | .getOS => .readOnly 0x04 1 fun d => [osFlag (byteAt d 0)]
  | .clearOS => .clearOS literal
  | .packControl1 a b c d e f => .respond [packC1 a b c d e f]
  | .unpackControl1 b => .respond (unpackC1 b)
  | .packControl2 a b c d e f => .respond [packC2 a b c d e f]
  | .unpackControl2 b => .respond (unpackC2 b)

theorem BusProgram.run_decToBcd (v : Byte) (s : State) : (BusProgram.decToBcd v).run s = execDecToBcd v s := by
  unfold BusProgram.decToBcd execDecToBcd
  split <;> rfl

theorem BusProgram.run_enableAlarm (m : Byte) (s : State) :
    (BusProgram.enableAlarm m s.alarmEnableClobber).run s = execEnableAlarm m s := by
  unfold BusProgram.enableAlarm execEnableAlarm
  split <;> rfl

theorem BusProgram.run_clearOS (s : State) : (BusProgram.clearOS s.clearosLiteral).run s = execClearOS s := by
  unfold BusProgram.clearOS execClearOS
  split <;> rfl

/-- An operation of the model is its program, run with the state's configuration inputs. -/
theorem exec_eq_run (i : Instr) (s : State) :
    exec i s = (program i s.alarmEnableClobber s.clearosLiteral).run s := by
  cases i
  case decToBcd v => exact (BusProgram.run_decToBcd v s).symm
  case enableAlarm m => exact (BusProgram.run_enableAlarm m s).symm
  case clearOS => exact (BusProgram.run_clearOS s).symm
  all_goals rfl

/-- Only the program of `enableAlarm` depends on `ALARM_ENABLE_CLOBBER` (R17). -/
theorem program_clobber_eq {i : Instr} (h : ∀ m, i ≠ .enableAlarm m) (c c' l : Bool) :
    program i c l = program i c' l := by
  cases i
  case enableAlarm m => exact absurd rfl (h m)
  all_goals rfl

/-- Only the program of `clearOS` depends on `CLEAROS_LITERAL` (R17). -/
theorem program_literal_eq {i : Instr} (h : i ≠ .clearOS) (c l l' : Bool) :
    program i c l = program i c l' := by
  cases i
  case clearOS => exact absurd rfl h
  all_goals rfl

/-- The program issues transactions of these shapes, in this order, when it succeeds. -/
inductive BusProgram.Issues : BusProgram → List TxShape → Prop where
  | respond (l) : Issues (.respond l) []
  | draw {next shapes} : (∀ x, Issues (next x) shapes) → Issues (.draw next) shapes
  | write (a v) {next shapes} : Issues next shapes → Issues (.write a v next) (⟨.write, a.toNat, v.length⟩ :: shapes)
  | read (a n) {next shapes} : (∀ d, Issues (next d) shapes) → Issues (.read a n next) (⟨.read, a.toNat, n⟩ :: shapes)
  | rawRead {next shapes} : (∀ x, Issues (next x) shapes) → Issues (.rawRead next) (⟨.raw, 0x00, 1⟩ :: shapes)

theorem BusProgram.issues_writeOnly (a : Byte) (v : List Byte) :
    (BusProgram.writeOnly a v).Issues [⟨.write, a.toNat, v.length⟩] := .write a v (.respond [])

theorem BusProgram.issues_readOnly (a : Byte) (n : Nat) (f : List Byte → List Byte) :
    (BusProgram.readOnly a n f).Issues [⟨.read, a.toNat, n⟩] := .read a n fun _ => .respond _

theorem BusProgram.issues_decToBcd (v : Byte) : (BusProgram.decToBcd v).Issues [] := by
  unfold BusProgram.decToBcd
  split
  · exact .respond _
  · exact .draw fun _ => .respond _

/-- The program of every operation issues the transactions of its row of R34. -/
theorem program_issues (i : Instr) (c l : Bool) : (program i c l).Issues (busTable i c l) := by
  cases i
  case decToBcd v => exact BusProgram.issues_decToBcd v
  case enableAlarm m =>
    cases c
    · exact .read _ _ fun _ => BusProgram.issues_writeOnly _ _
    · exact BusProgram.issues_writeOnly _ _
  case clearOS =>
    cases l
    · exact .read _ _ fun _ => BusProgram.issues_writeOnly _ _
    · exact .write _ _ (.rawRead fun _ => BusProgram.issues_writeOnly _ _)
  case getTime | getTimerMode | getTimerValue | getOffset | getControl1 | getControl2 | getRam | getOS =>
    exact BusProgram.issues_readOnly _ _ _
  case setTime | setAlarm | setTimer | setTimerMode | setTimerValue | setOffset | setControl1 | setControl2 | setRam =>
    exact BusProgram.issues_writeOnly _ _
  case bcdToDec | packTimerMode | unpackTimerMode | packControl1 | unpackControl1 | packControl2 | unpackControl2 =>
    exact .respond _

/-- No transaction of the table reaches above register `0x11` (R31, R50). -/
theorem busTable_inside (i : Instr) (c l : Bool) : ∀ x ∈ busTable i c l, x.addr + x.count ≤ 0x12 := by
  cases i
  case enableAlarm m => cases c <;> simp [busTable]
  case clearOS => cases l <;> simp [busTable]
  all_goals simp [busTable]

/-- The program of a bus operation begins with a transaction that sets the register pointer. -/
def BusProgram.Transacts : BusProgram → Prop
  | .write .. | .read .. => True
  | .respond _ | .draw _ | .rawRead _ => False

theorem program_transacts {i : Instr} (h : usesBus i = true) (c l : Bool) : (program i c l).Transacts := by
  cases i
  case enableAlarm m => cases c <;> trivial
  case clearOS => cases l <;> trivial
  case decToBcd | bcdToDec | packTimerMode | unpackTimerMode | packControl1 | unpackControl1 | packControl2
    | unpackControl2 => cases h
  all_goals trivial

/-! ### What one transaction leaves behind -/

/-- From `s` to `s1` one transaction of the given shape was issued, with success or without. -/
structure Transacted (s s1 : State) (shape : TxShape) : Prop where
  same : SameInputs s s1
  trace : ∃ tx : Transaction, tx.shape = shape ∧ s1.trace = s.trace ++ [tx]
  script : s1.script <:+ s.script
  canonical : shape.addr + shape.count ≤ 0x12 → s.regs.wf = true → s1.regs.wf = true

theorem SameInputs.refl (s : State) : SameInputs s s := ⟨rfl, rfl, rfl, rfl, rfl⟩

theorem SameInputs.trans {s t u : State} (h : SameInputs s t) (h' : SameInputs t u) : SameInputs s u :=
  ⟨h'.cmd.trans h.cmd, h'.alarmEnableClobber.trans h.alarmEnableClobber, h'.clearosLiteral.trans h.clearosLiteral,
    h'.inbox.trans h.inbox, h'.failure.trans h.failure⟩

theorem transacted_afterWrite (s : State) (a : Byte) (v : List Byte) :
    Transacted s (s.afterWrite a v) ⟨.write, a.toNat, v.length⟩ where
  same := by constructor <;> simp [State.afterWrite]
  trace := ⟨.write a v 0x00, rfl, by simp [State.afterWrite]⟩
  script := by simpa [State.afterWrite] using List.tail_suffix s.script
  canonical hmap h := by simpa [State.afterWrite] using Memory.wf_writes v (Memory.wf_applyMoves _ h) hmap

theorem transacted_afterFailedWrite (s : State) (a : Byte) (v : List Byte) (e : BusErr) (j : Nat) :
    Transacted s (s.afterFailedWrite a v e j) ⟨.write, a.toNat, v.length⟩ where
  same := by constructor <;> simp [State.afterFailedWrite]
  trace := ⟨.write a v e.code, rfl, rfl⟩
  script := List.tail_suffix s.script
  canonical hmap h :=
    have hstored : a.toNat + (v.take j).length ≤ 0x12 :=
      (Nat.add_le_add_left (List.length_take_le' j v) _).trans hmap
    Memory.wf_writes _ (Memory.wf_applyMoves _ h) hstored

theorem transacted_afterRead (s : State) (a : Byte) (n : Nat) :
    Transacted s (s.afterRead a n) ⟨.read, a.toNat, n⟩ where
  same := by constructor <;> simp [State.afterRead]
  trace := ⟨_, rfl, by simp [State.afterRead]; rfl⟩
  script := by simpa [State.afterRead] using List.tail_suffix s.script
  canonical _ h := by simpa [State.afterRead] using Memory.wf_applyMoves _ h

/-- A transaction that fails with no register changed. -/
theorem transacted_losePointer (s : State) (tx : Transaction) :
    Transacted s (s.reach.losePointer.issued tx) tx.shape where
  same := ⟨rfl, rfl, rfl, rfl, rfl⟩
  trace := ⟨tx, rfl, rfl⟩
  script := List.tail_suffix s.script
  canonical _ h := Memory.wf_applyMoves _ h

theorem transacted_rawRead (s : State) : Transacted s (rawRead s).2 ⟨.raw, 0x00, 1⟩ where
  same := ⟨rfl, rfl, rfl, rfl, rfl⟩
  trace := ⟨.rawRead s.drawn, rfl, rfl⟩
  script := List.suffix_rfl
  canonical _ h := h

/-- Every state a transaction can end in satisfies `Q`. -/
def Tx.Leaves {α : Type} (Q : State → Prop) : Tx α → Prop
  | .ok _ s => Q s
  | .failed _ s => Q s
  | .stuck => True

theorem memWrite_transacted (a : Byte) (v : List Byte) (s : State) :
    (memWrite a v s).Leaves fun s1 => Transacted s s1 ⟨.write, a.toNat, v.length⟩ := by
  rcases memWrite_cases a v s with ⟨-, hw⟩ | ⟨e, -, hw⟩ | ⟨-, hw⟩ <;> rw [hw]
  · exact transacted_afterWrite s a v
  · exact transacted_afterFailedWrite s a v e _
  · trivial

theorem memRead_transacted (a : Byte) (n : Nat) (s : State) :
    (memRead a n s).Leaves fun s1 => Transacted s s1 ⟨.read, a.toNat, n⟩ := by
  rcases memRead_cases a n s with ⟨-, hr⟩ | ⟨e, tx, -, -, rfl | rfl, hr⟩ | ⟨-, hr⟩ <;> rw [hr]
  · exact transacted_afterRead s a n
  · exact transacted_losePointer s _
  · exact transacted_losePointer s _
  · trivial

/-- An operation that answers a next state after a transaction went on from its success, or ended with its failure. -/
theorem Tx.andThen_next {α : Type} {Q : State → Prop} {x : Tx α} {t : State}
    {k : α → State → Host.Outcome State Fault Refusal} (hx : x.Leaves Q) (h : x.andThen k = .next t) :
    (∃ a s1, Q s1 ∧ k a s1 = .next t) ∨ (∃ e s1, Q s1 ∧ t = s1.raiseBusTransactionError e) := by
  cases x with
  | ok a s1 => exact .inl ⟨a, s1, hx, h⟩
  | failed e s1 =>
    injection h with h
    exact .inr ⟨e, s1, hx, h.symm⟩
  | stuck => cases h

/-! ### What every operation keeps -/

/-- No part of an operation breaks `P`: no free value, no transaction inside the map, no response. -/
structure OperationInvariant (P : State → Prop) : Prop where
  drew : ∀ {s}, P s → P s.drew
  transaction : ∀ {s s1 shape}, Transacted s s1 shape → shape.addr + shape.count ≤ 0x12 → P s → P s1
  respond : ∀ {s} l, P s → P (s.respond l)
  raise : ∀ {s} e, P s → P (s.raiseBusTransactionError e)

theorem BusProgram.Issues.keeps {P : State → Prop} (hP : OperationInvariant P) {p : BusProgram} {shapes : List TxShape}
    (hp : p.Issues shapes) (hmap : ∀ x ∈ shapes, x.addr + x.count ≤ 0x12) {s t : State} (hs : P s)
    (h : p.run s = .next t) : P t := by
  induction hp generalizing s with
  | respond l =>
    injection h with h
    exact h ▸ hP.respond l hs
  | draw _ ih => exact ih _ hmap (hP.drew hs) h
  | write a v _ ih =>
    obtain ⟨hx, hrest⟩ := List.forall_mem_cons.mp hmap
    rcases Tx.andThen_next (memWrite_transacted a v s) h with ⟨_, s1, h1, hk⟩ | ⟨e, s1, h1, rfl⟩
    · exact ih hrest (hP.transaction h1 hx hs) hk
    · exact hP.raise e (hP.transaction h1 hx hs)
  | read a n _ ih =>
    obtain ⟨hx, hrest⟩ := List.forall_mem_cons.mp hmap
    rcases Tx.andThen_next (memRead_transacted a n s) h with ⟨d, s1, h1, hk⟩ | ⟨e, s1, h1, rfl⟩
    · exact ih d hrest (hP.transaction h1 hx hs) hk
    · exact hP.raise e (hP.transaction h1 hx hs)
  | rawRead _ ih =>
    obtain ⟨hx, hrest⟩ := List.forall_mem_cons.mp hmap
    exact ih _ hrest (hP.transaction (transacted_rawRead s) hx hs) h

theorem exec_keeps {P : State → Prop} (hP : OperationInvariant P) {i : Instr} {s t : State} (hs : P s)
    (h : exec i s = .next t) : P t := by
  rw [exec_eq_run] at h
  exact (program_issues i _ _).keeps hP (busTable_inside i _ _) hs h

theorem operationInvariant_canonical : OperationInvariant fun s => s.regs.wf = true where
  drew hs := hs
  transaction h hmap hs := h.canonical hmap hs
  respond _ hs := hs
  raise _ hs := hs

theorem operationInvariant_sameInputs (s0 : State) : OperationInvariant (SameInputs s0) where
  drew hs := hs.trans ⟨rfl, rfl, rfl, rfl, rfl⟩
  transaction h _ hs := hs.trans h.same
  respond _ hs := hs.trans ⟨rfl, rfl, rfl, rfl, rfl⟩
  raise _ hs := hs.trans ⟨rfl, rfl, rfl, rfl, rfl⟩

theorem exec_sameInputs {i : Instr} {s t : State} (h : exec i s = .next t) : SameInputs s t :=
  exec_keeps (operationInvariant_sameInputs s) (SameInputs.refl s) h

/-- Settles O54: an operation by `operationInvariant_canonical`, the environment's own changes as writes inside the
map. -/
theorem stepKeepsTheImageCanonical : Obligations.StepKeepsTheImageCanonical := by
  intro s t hs h
  rcases step_cases h with ⟨-, rfl⟩ | ⟨w, rest, i, -, -, hx⟩ | ⟨w, rest, e, -, -, rfl⟩ | ⟨moves, rest, -, rfl⟩ |
    ⟨moves, rest, -, rfl⟩ | ⟨f, rest, -, rfl⟩
  · exact hs
  · exact exec_keeps operationInvariant_canonical (s := s.accept w rest) hs hx
  · exact hs
  · exact Memory.wf_applyMoves moves hs
  · exact Memory.wf_write _ (Memory.wf_applyMoves moves hs) (by decide)
  · exact hs

/-! ### Which transactions an operation issues -/

/-- From `s` to `t` the first few transactions of a row were issued, all of them where the status is `OK`. -/
def Followed (s t : State) (shapes : List TxShape) : Prop :=
  ∃ new, t.trace = s.trace ++ new ∧ new.map Transaction.shape <+: shapes ∧
    (t.status = 0x00 → new.map Transaction.shape = shapes)

/-- One transaction, then what follows it. -/
theorem Transacted.followed_cons {s s1 t : State} {shape : TxShape} {shapes : List TxShape}
    (h : Transacted s s1 shape) (ht : Followed s1 t shapes) : Followed s t (shape :: shapes) := by
  obtain ⟨tx, rfl, htrace⟩ := h.trace
  obtain ⟨new, hnew, hprefix, hall⟩ := ht
  refine ⟨tx :: new, by rw [hnew, htrace, List.append_assoc]; rfl, ?_, fun hst => ?_⟩
  · exact List.cons_prefix_cons.mpr ⟨rfl, hprefix⟩
  · rw [List.map_cons, hall hst]

/-- A failure code is not `OK`. -/
theorem BusErr.code_ne_zero (e : BusErr) : e.code ≠ 0x00 := by
  intro h
  have := e.legal.1
  simp [h] at this

/-- A failing transaction is the last one (R153). -/
theorem Transacted.followed_raise {s s1 : State} {shape : TxShape} (h : Transacted s s1 shape) (e : BusErr)
    (shapes : List TxShape) : Followed s (s1.raiseBusTransactionError e) (shape :: shapes) := by
  obtain ⟨tx, rfl, htrace⟩ := h.trace
  exact ⟨[tx], htrace, ⟨shapes, rfl⟩, fun hst => absurd hst e.code_ne_zero⟩

theorem BusProgram.Issues.followed {p : BusProgram} {shapes : List TxShape} (hp : p.Issues shapes) {s t : State}
    (h : p.run s = .next t) : Followed s t shapes := by
  induction hp generalizing s with
  | respond l =>
    injection h with h
    exact ⟨[], by simp [← h], List.prefix_rfl, fun _ => rfl⟩
  | draw _ ih => exact ih (s := s.drew) s.drawn h
  | write a v _ ih =>
    rcases Tx.andThen_next (memWrite_transacted a v s) h with ⟨_, s1, h1, hk⟩ | ⟨e, s1, h1, rfl⟩
    · exact h1.followed_cons (ih hk)
    · exact h1.followed_raise e _
  | read a n _ ih =>
    rcases Tx.andThen_next (memRead_transacted a n s) h with ⟨d, s1, h1, hk⟩ | ⟨e, s1, h1, rfl⟩
    · exact h1.followed_cons (ih d hk)
    · exact h1.followed_raise e _
  | rawRead _ ih => exact (transacted_rawRead s).followed_cons (ih _ h)

/-- Settles O53: the operation's program issues its row, and every transaction of a row lies in the map. -/
theorem transactionsFollowTheTable : Obligations.TransactionsFollowTheTable := by
  intro i s t h
  rw [exec_eq_run] at h
  obtain ⟨new, htrace, hprefix, hall⟩ := (program_issues i _ _).followed h
  refine ⟨new, htrace, hprefix, hall, fun x hx => ?_⟩
  exact busTable_inside i _ _ _ (hprefix.subset (List.mem_map_of_mem hx))

/-! ### What an operation depends on -/

/-- Two states over one device and one environment, the first reached by a run that began with trace `tr`, the second by
one that began with `tr'`, both with the same transactions since. Where `b` holds the register pointers are equal too:
they may differ before the first transaction of an operation, not after it. -/
structure Alike (b : Prop) (tr tr' : List Transaction) (s s' : State) : Prop where
  regs : s'.regs = s.regs
  failure : s'.failure = s.failure
  script : s'.script = s.script
  draws : s'.draws = s.draws
  trace : ∃ new, s.trace = tr ++ new ∧ s'.trace = tr' ++ new
  pointer : b → s'.ptr = s.ptr

/-- Two transactions that end alike: with the same value or failure, in states that are alike. -/
inductive TxAlike {α : Type} (tr tr' : List Transaction) : Tx α → Tx α → Prop where
  | ok (a) {s s'} : Alike True tr tr' s s' → TxAlike tr tr' (.ok a s) (.ok a s')
  | failed (e) {s s'} : Alike True tr tr' s s' → TxAlike tr tr' (.failed e s) (.failed e s')
  | stuck : TxAlike tr tr' .stuck .stuck

/-- Two operations that end alike: with the same response in states that are alike, or with the same fault. -/
inductive OutcomesAlike (b : Prop) (tr tr' : List Transaction) :
    Host.Outcome State Fault Refusal → Host.Outcome State Fault Refusal → Prop where
  | next {t t'} : Alike b tr tr' t t' → t'.status = t.status → t'.res = t.res →
      OutcomesAlike b tr tr' (.next t) (.next t')
  | fault (f) : OutcomesAlike b tr tr' (.fault f) (.fault f)

section
variable {b c : Prop} {tr tr' : List Transaction} {s s' : State}

theorem Alike.mono (h : Alike b tr tr' s s') (hc : c → b) : Alike c tr tr' s s' :=
  ⟨h.regs, h.failure, h.script, h.draws, h.trace, fun hp => h.pointer (hc hp)⟩

theorem OutcomesAlike.mono {o o' : Host.Outcome State Fault Refusal} (h : OutcomesAlike b tr tr' o o') (hc : c → b) :
    OutcomesAlike c tr tr' o o' := by
  cases h with
  | next h hst hres => exact .next (h.mono hc) hst hres
  | fault f => exact .fault f

theorem Alike.nextEvent (h : Alike b tr tr' s s') : s'.nextEvent = s.nextEvent := by
  simp [State.nextEvent, h.script, h.failure]

theorem Alike.nextAnswer (h : Alike b tr tr' s s') : s'.nextAnswer = s.nextAnswer := by
  rw [State.nextAnswer, State.nextAnswer, h.nextEvent]

theorem Alike.reach (h : Alike b tr tr' s s') : Alike b tr tr' s.reach s'.reach :=
  ⟨by simp [h.regs, h.nextEvent], h.failure, by simp [h.script], h.draws, h.trace, h.pointer⟩

theorem Alike.writes (h : Alike b tr tr' s s') (a : Nat) (v : List Byte) :
    Alike b tr tr' { s with regs := s.regs.writes a v } { s' with regs := s'.regs.writes a v } :=
  ⟨by simp [h.regs], h.failure, h.script, h.draws, h.trace, h.pointer⟩

theorem Alike.drew (h : Alike b tr tr' s s') : Alike b tr tr' s.drew s'.drew :=
  ⟨h.regs, h.failure, h.script, by simp [h.draws], h.trace, h.pointer⟩

theorem Alike.losePointer (h : Alike b tr tr' s s') : Alike True tr tr' s.losePointer s'.losePointer :=
  ⟨h.regs, h.failure, h.script, by simp [h.draws], h.trace, fun _ => by simp [h.draws]⟩

theorem Alike.movePointer (h : Alike b tr tr' s s') (a : Byte) (n : Nat) :
    Alike True tr tr' (s.movePointer a n) (s'.movePointer a n) := by
  by_cases hn : a.toNat + n ≤ 0x11
  · rw [State.movePointer_inside s hn, State.movePointer_inside s' hn]
    exact ⟨h.regs, h.failure, h.script, h.draws, h.trace, fun _ => rfl⟩
  · rw [State.movePointer_beyond s hn, State.movePointer_beyond s' hn]
    exact h.losePointer

theorem Alike.issued (h : Alike b tr tr' s s') (tx : Transaction) :
    Alike b tr tr' (s.issued tx) (s'.issued tx) := by
  obtain ⟨new, hs, hs'⟩ := h.trace
  exact ⟨h.regs, h.failure, h.script, h.draws, ⟨new ++ [tx], by simp [hs], by simp [hs']⟩, h.pointer⟩

theorem Alike.respond (h : Alike b tr tr' s s') (l : List Byte) :
    OutcomesAlike b tr tr' (pureOp l s) (pureOp l s') :=
  .next ⟨h.regs, h.failure, h.script, h.draws, h.trace, h.pointer⟩ rfl rfl

theorem Alike.raise (h : Alike b tr tr' s s') (e : BusErr) :
    OutcomesAlike b tr tr' (.next (s.raiseBusTransactionError e)) (.next (s'.raiseBusTransactionError e)) :=
  .next ⟨h.regs, h.failure, h.script, h.draws, h.trace, h.pointer⟩ rfl rfl

/-- A write transaction depends on the device and the environment alone, and sets the pointer. -/
theorem Alike.memWrite (h : Alike b tr tr' s s') (a : Byte) (v : List Byte) :
    TxAlike tr tr' (memWrite a v s) (memWrite a v s') := by
  simp only [Sys2Proof.Machine.memWrite, h.nextAnswer]
  cases s.nextAnswer with
  | done => exact .ok () (((h.reach.writes _ v).movePointer a _).issued _)
  | doneGiving d => exact .ok () (((h.reach.writes _ v).movePointer a _).issued _)
  | pointerFails e => exact .failed e (h.reach.losePointer.issued _)
  | dataFails e j => exact .failed e ((h.reach.writes _ (v.take j)).losePointer.issued _)
  | never => exact .stuck

/-- A read transaction depends on the device and the environment alone, and sets the pointer. -/
theorem Alike.memRead (h : Alike b tr tr' s s') (a : Byte) (n : Nat) :
    TxAlike tr tr' (memRead a n s) (memRead a n s') := by
  simp only [Sys2Proof.Machine.memRead, h.nextAnswer, h.reach.regs]
  cases s.nextAnswer with
  | done => exact .ok _ ((h.reach.movePointer a n).issued _)
  | doneGiving d => exact .ok _ ((h.reach.movePointer a n).issued _)
  | pointerFails e => exact .failed e (h.reach.losePointer.issued _)
  | dataFails e j => exact .failed e (h.reach.losePointer.issued _)
  | never => exact .stuck

theorem TxAlike.andThen {α : Type} {x x' : Tx α} {k : α → State → Host.Outcome State Fault Refusal}
    (hx : TxAlike tr tr' x x')
    (hk : ∀ a s s', Alike True tr tr' s s' → OutcomesAlike True tr tr' (k a s) (k a s')) :
    OutcomesAlike True tr tr' (x.andThen k) (x'.andThen k) := by
  cases hx with
  | ok a h => exact hk a _ _ h
  | failed e h => exact h.raise e
  | stuck => exact .fault _

/-- A program run from states that are alike ends alike; a transaction makes the pointers equal. -/
theorem BusProgram.run_alike (p : BusProgram) (h : Alike b tr tr' s s') :
    OutcomesAlike (b ∨ p.Transacts) tr tr' (p.run s) (p.run s') := by
  induction p generalizing b s s' with
  | respond l => exact (h.respond l).mono fun hb => hb.resolve_right id
  | draw next ih =>
    have hdrawn : s'.drawn = s.drawn := congrArg Config.draw8 h.draws
    rw [BusProgram.run, BusProgram.run, hdrawn]
    exact (ih _ h.drew).mono fun hb => .inl (hb.resolve_right id)
  | write a v next ih =>
    refine (TxAlike.andThen (h.memWrite a v) fun _ _ _ h1 => ?_).mono fun _ => trivial
    exact (ih h1).mono .inl
  | read a n next ih =>
    refine (TxAlike.andThen (h.memRead a n) fun d _ _ h1 => ?_).mono fun _ => trivial
    exact (ih d h1).mono .inl
  | rawRead next ih =>
    have hdrawn : s'.drawn = s.drawn := congrArg Config.draw8 h.draws
    rw [BusProgram.run, BusProgram.run, hdrawn]
    exact (ih _ (h.drew.issued _)).mono fun hb => .inl (hb.resolve_right id)

/-- An operation whose program is the same from two states that are alike ends alike from them. -/
theorem exec_alike {i : Instr} (hp : program i s'.alarmEnableClobber s'.clearosLiteral =
    program i s.alarmEnableClobber s.clearosLiteral) (h : Alike b tr tr' s s') :
    OutcomesAlike (b ∨ usesBus i = true) tr tr' (exec i s) (exec i s') := by
  rw [exec_eq_run, exec_eq_run, hp]
  exact (BusProgram.run_alike _ h).mono (Or.imp_right fun hb => program_transacts hb _ _)

theorem OutcomesAlike.of_next {t : State} {o' : Host.Outcome State Fault Refusal}
    (h : OutcomesAlike b tr tr' (.next t) o') :
    ∃ t', o' = .next t' ∧ Alike b tr tr' t t' ∧ t'.status = t.status ∧ t'.res = t.res := by
  cases h with
  | next h hst hres => exact ⟨_, rfl, h, hst, hres⟩

theorem OutcomesAlike.of_fault {f : Fault} {o' : Host.Outcome State Fault Refusal}
    (h : OutcomesAlike b tr tr' (.fault f) o') : o' = .fault f := by
  cases h with
  | fault f => rfl

theorem SameEnvironment.alike (h : SameEnvironment s s') : Alike False s.trace s'.trace s s' :=
  ⟨h.regs, h.failure, h.script, h.draws, ⟨[], by simp, by simp⟩, False.elim⟩

theorem SameEnvironment.program_eq (h : SameEnvironment s s') (i : Instr) :
    program i s'.alarmEnableClobber s'.clearosLiteral = program i s.alarmEnableClobber s.clearosLiteral := by
  rw [h.alarmEnableClobber, h.clearosLiteral]

end

/-- Settles O57, by `exec_alike`: the same program over the same device and environment. -/
theorem blockKeepsNoStateBetweenCommands : Obligations.BlockKeepsNoStateBetweenCommands := by
  intro i s s' h
  have ha := exec_alike (h.program_eq i) h.alike
  refine ⟨fun t ht => ?_, fun f hf => (hf ▸ ha).of_fault⟩
  obtain ⟨t', ht', hd, hst, hres⟩ := (ht ▸ ha).of_next
  obtain ⟨new, htr, htr'⟩ := hd.trace
  have hs := exec_sameInputs ht
  have hs' := exec_sameInputs ht'
  have henv : SameEnvironment t t' :=
    { alarmEnableClobber := by rw [hs'.alarmEnableClobber, hs.alarmEnableClobber, h.alarmEnableClobber]
      clearosLiteral := by rw [hs'.clearosLiteral, hs.clearosLiteral, h.clearosLiteral]
      regs := hd.regs
      failure := hd.failure
      script := hd.script
      draws := hd.draws }
  exact ⟨t', new, ht', hst, hres, henv, htr, htr', fun hb => hd.pointer (.inr hb)⟩

/-! ### The configuration inputs (R17) -/

/-- A state with other configuration inputs. -/
def State.configured (s : State) (c l : Bool) : State := { s with alarmEnableClobber := c, clearosLiteral := l }

theorem State.configured_alike (s : State) (c l : Bool) : Alike True s.trace s.trace s (s.configured c l) :=
  ⟨rfl, rfl, rfl, rfl, ⟨[], by simp, by simp [State.configured]⟩, fun _ => rfl⟩

/-- A state that is alike another, gives the same response and has kept its inputs is that other with its own
configuration inputs. -/
theorem Alike.eq_configured {tr : List Transaction} {s t t' : State} {c l : Bool} (h : Alike True tr tr t t')
    (hst : t'.status = t.status) (hres : t'.res = t.res) (ht : SameInputs s t)
    (ht' : SameInputs (s.configured c l) t') : t' = t.configured c l := by
  have htrace : t'.trace = t.trace := by
    obtain ⟨new, hnew, hnew'⟩ := h.trace
    rw [hnew, hnew']
  have hcmd : t'.cmd = t.cmd := ht'.cmd.trans ht.cmd.symm
  have hinbox : t'.inbox = t.inbox := ht'.inbox.trans ht.inbox.symm
  have hclobber : t'.alarmEnableClobber = c := ht'.alarmEnableClobber
  have hliteral : t'.clearosLiteral = l := ht'.clearosLiteral
  have hptr : t'.ptr = t.ptr := h.pointer trivial
  obtain ⟨hregs, hfailure, hscript, hdraws, -, -⟩ := h
  cases t'
  simp_all [State.configured]

/-- Configuration inputs the operation's program does not depend on do not change what it does. -/
theorem exec_configured {i : Instr} {s t : State} {c l : Bool}
    (hp : program i c l = program i s.alarmEnableClobber s.clearosLiteral) (h : exec i s = .next t) :
    exec i (s.configured c l) = .next (t.configured c l) := by
  have ha := exec_alike (s' := s.configured c l) hp (s.configured_alike c l)
  obtain ⟨t', ht', hd, hst, hres⟩ := (h ▸ ha).of_next
  rw [ht', (hd.mono .inl).eq_configured hst hres (exec_sameInputs h) (exec_sameInputs ht')]

theorem step_keeps_configuration {s t : State} (h : step s = .next t) :
    t.alarmEnableClobber = s.alarmEnableClobber ∧ t.clearosLiteral = s.clearosLiteral := by
  rcases step_cases h with ⟨-, rfl⟩ | ⟨w, rest, i, -, -, hx⟩ | ⟨w, rest, e, -, -, rfl⟩ | ⟨moves, rest, -, rfl⟩ |
    ⟨moves, rest, -, rfl⟩ | ⟨f, rest, -, rfl⟩
  case inr.inl => exact ⟨(exec_sameInputs hx).alarmEnableClobber, (exec_sameInputs hx).clearosLiteral⟩
  all_goals exact ⟨rfl, rfl⟩

/-- Settles O12: no step writes the inputs, and only the programs of `enableAlarm` and `clearOS` depend on one, each on
its own. -/
theorem configurationInputsNeverChange : Obligations.ConfigurationInputsNeverChange := by
  refine ⟨fun s t => step_keeps_configuration, fun i c s t hi h => ?_, fun i l s t hi h => ?_⟩
  · simpa only [State.configured, (exec_sameInputs h).clearosLiteral] using
      exec_configured (program_clobber_eq hi c s.alarmEnableClobber s.clearosLiteral) h
  · simpa only [State.configured, (exec_sameInputs h).alarmEnableClobber] using
      exec_configured (program_literal_eq hi s.alarmEnableClobber l s.clearosLiteral) h

end Sys2Proof.Machine
end

section
/-! PROOFS. The statements of 20_memory.md: what a read gives, the total order of the transactions, what may happen
between two transactions and between two commands. -/

namespace Sys2Proof.Machine

/-! ### A transaction that succeeds -/

theorem memRead_of_succeeds {s : State} (h : s.nextAnswer.succeeds = true) (a : Byte) (n : Nat) :
    memRead a n s = .ok (s.readGives a n) (s.afterRead a n) := by
  rcases memRead_cases a n s with ⟨-, hr⟩ | ⟨e, tx, he, -⟩ | ⟨hn, -⟩
  · exact hr
  · simp [(Answer.failure_excludes he).1] at h
  · simp [hn, Answer.succeeds] at h

/-- A read that succeeds changes no register (R46). -/
@[simp] theorem State.afterRead_regs (s : State) (a : Byte) (n : Nat) : (s.afterRead a n).regs = s.reach.regs := by
  simp [State.afterRead]

@[simp] theorem State.afterRead_script (s : State) (a : Byte) (n : Nat) :
    (s.afterRead a n).script = s.script.tail := by
  simp [State.afterRead]

/-- Settles O15: the bytes are `Memory.reads` of the image as the transaction finds it, which a read leaves alone. -/
theorem memReadGivesTheRegisters : Obligations.MemReadGivesTheRegisters := by
  intro a n s hdone
  have hsucceeds : s.nextAnswer.succeeds = true := by simp [hdone, Answer.succeeds]
  have hread := memRead_of_succeeds hsucceeds a n
  rw [readGives_of_done hdone] at hread
  exact ⟨_, _, hread, Memory.reads_length _ _ _, Memory.reads_getElem _ _ _, State.afterRead_regs s a n⟩

/-! ### The total order of the transactions (R56) -/

/-- No row of R34 has more than three transactions; the literal `clearOS` has three (R141). -/
theorem busTable_length_le (i : Instr) (c l : Bool) : (busTable i c l).length ≤ 3 := by
  cases i
  case enableAlarm m => cases c <;> simp [busTable]
  case clearOS => cases l <;> simp [busTable]
  all_goals simp [busTable]

theorem exec_appends_at_most_three {i : Instr} {s t : State} (h : exec i s = .next t) :
    ∃ new, t.trace = s.trace ++ new ∧ new.length ≤ 3 := by
  rw [exec_eq_run] at h
  obtain ⟨new, htrace, hprefix, -⟩ := (program_issues i _ _).followed h
  have hshapes : (new.map Transaction.shape).length ≤ 3 := hprefix.length_le.trans (busTable_length_le i _ _)
  exact ⟨new, htrace, by simpa using hshapes⟩

/-- Settles O16: only an operation issues transactions, those of its row of R34. -/
theorem transactionsAreTotallyOrdered : Obligations.TransactionsAreTotallyOrdered := by
  intro s t h
  rcases step_cases h with ⟨-, rfl⟩ | ⟨w, rest, i, -, -, hx⟩ | ⟨w, rest, e, -, -, rfl⟩ | ⟨moves, rest, -, rfl⟩ |
    ⟨moves, rest, -, rfl⟩ | ⟨f, rest, -, rfl⟩
  case inr.inl => exact exec_appends_at_most_three (s := s.accept w rest) hx
  all_goals exact ⟨[], (List.append_nil _).symm, Nat.zero_le 3⟩

/-! ### The corrected `clearOS` is not atomic (R58, R177) -/

/-- Byte `k` of what was read from the image is that of register `a + k` (R46, R48). -/
theorem byteAt_reads (m : Memory) (a : Nat) {n k : Nat} (h : k < n) : byteAt (m.reads a n) k = m.read (a + k) := by
  have hk : k < (m.reads a n).length := by simpa using h
  rw [byteAt, List.getD_eq_getElem _ _ hk, Memory.reads_getElem]

/-- After a read that succeeds the corrected `clearOS` is one write of the byte read, OS cleared (R140). -/
theorem exec_clearOS_of_read_succeeds {s : State} (hl : s.clearosLiteral = false) (h : s.nextAnswer.succeeds = true) :
    exec .clearOS s = writeOp 0x04 [clearOsFlag (byteAt (s.readGives 0x04 1) 0)] (s.afterRead 0x04 1) := by
  simp [exec, execClearOS, hl, memRead_of_succeeds h, Tx.andThen]

/-- Settles O48: the payload of the write was fixed by the read, so what the device does to Seconds in between is
overwritten. -/
theorem clearOSPutsTheOlderSecondsBack : Obligations.ClearOSPutsTheOlderSecondsBack := by
  intro s x tail hl hscript
  have hfirst : s.nextAnswer = .done := by rw [State.nextAnswer, State.nextEvent_cons hscript]
  have hfirstMoves : s.reach.regs = s.regs := by rw [State.reach_regs, State.nextEvent_cons hscript]; rfl
  have hbyte : byteAt (s.readGives 0x04 1) 0 = s.regs.read 0x04 := by
    rw [readGives_of_done hfirst, hfirstMoves]
    exact byteAt_reads s.regs 0x04 Nat.one_pos
  have hsecondScript : (s.afterRead 0x04 1).script = ⟨[⟨4, x⟩], .done⟩ :: tail := by simp [hscript]
  have hsecond : (s.afterRead 0x04 1).nextAnswer.succeeds = true := by
    rw [State.nextAnswer, State.nextEvent_cons hsecondScript]; rfl
  obtain ⟨t, ht, hw⟩ := (writeOp_endsInWrite 0x04 [clearOsFlag (s.regs.read 0x04)] (s.afterRead 0x04 1)).1 hsecond
  refine ⟨t, ?_, hw.status, hw.inside 0 Nat.one_pos⟩
  rw [exec_clearOS_of_read_succeeds hl (by rw [hfirst]; rfl), hbyte, ht]

/-! ### Between commands (R52, R55, R170) -/

theorem step_of_inbox_nil {s : State} (hi : s.inbox = []) : step s = .next s := by
  simp [step, hi]

theorem step_idle {s : State} {moves : List Move} {rest : List Input} (hi : s.inbox = .idle moves :: rest) :
    step s = .next ({ s with inbox := rest }.environmentMoves moves) := by
  simp [step, hi]

/-- Settles O10: an idle step is `State.environmentMoves`, which writes the registers of its moves and nothing else. -/
theorem betweenCommandsOnlyTheEnvironmentMoves : Obligations.BetweenCommandsOnlyTheEnvironmentMoves := by
  refine ⟨fun s => step_of_inbox_nil, fun s moves rest hi => ?_, fun s r b rest hi => ?_⟩
  · exact ⟨_, step_idle hi, fun x => Memory.read_applyMoves_other moves s.regs, rfl⟩
  · exact ⟨_, step_idle hi, Memory.read_write_same s.regs r.val b⟩

/-! ### The invariants at power-up -/

/-- Settles O56: no register is listed, the response is zero, the script is empty, and the mock has no failure set. -/
theorem invariantsHoldAtReset : Obligations.InvariantsHoldAtReset := by
  have hcanonical : State.reset.regs.wf = true := rfl
  have hzero : State.reset.failureIsZero := fun _ => rfl
  have hcompletes : State.reset.transportCompletes := fun _ hev => absurd hev List.not_mem_nil
  have hstoring : State.reset.storing := ⟨rfl, rfl⟩
  exact ⟨hcanonical, hzero, hcompletes, hstoring⟩

end Sys2Proof.Machine
end

section
/-! PROOFS. The statements of 30_encoding.md: the layout of the two words, the decoder and the encoder, the written
form, and the status of a response. A decoded word is compared with the word of its instruction through its command
with the unnamed operand bytes cleared (`Command.clearFrom`, `decodeCommand_eq_ok_iff`). -/

namespace Sys2Proof

/-! ### The layout of the command and response words (R61, R63) -/

theorem byteOf_wordOf_succ (b : Byte) (v : Seven) {k : Nat} (h : k < 7) : byteOf (wordOf b v) (k + 1) = v[k] := by
  obtain ⟨h1, h2, h3, h4, h5, h6, h7⟩ := byteOf_wordOf_next b v
  interval_cases k <;> assumption

theorem sevenOf_wordOf (b : Byte) (v : Seven) : sevenOf (wordOf b v) = v := by
  ext k h
  rw [← byteOf_wordOf_succ b v h]
  interval_cases k <;> rfl

/-- The eight bytes of a word, put together again. -/
theorem wordOf_bytes (w : Word64) : wordOf (byteOf w 0) (sevenOf w) = w := by
  have hjoin {n k : Nat} : w.extractLsb' (k + 8) n ++ w.extractLsb' k 8 = w.extractLsb' k (n + 8) :=
    BitVec.extractLsb'_append_extractLsb'_eq_extractLsb' rfl
  calc wordOf (byteOf w 0) (sevenOf w)
    _ = w.extractLsb' 56 8 ++ w.extractLsb' 48 8 ++ w.extractLsb' 40 8 ++ w.extractLsb' 32 8 ++ w.extractLsb' 24 8 ++
          w.extractLsb' 16 8 ++ w.extractLsb' 8 8 ++ w.extractLsb' 0 8 := rfl
    _ = w.extractLsb' 0 64 := by rw [hjoin, hjoin, hjoin, hjoin, hjoin, hjoin, hjoin]
    _ = w := BitVec.extractLsb'_eq_self

/-- The layout of R61 and R63 by bit numbers. -/
theorem wordOf_layout (b : Byte) (v : Seven) : (wordOf b v).extractLsb' 56 8 = b ∧
    ∀ (k : Nat) (h : k < 7), (wordOf b v).extractLsb' (48 - 8 * k) 8 = v[k] := by
  refine ⟨byteOf_wordOf_first b v, fun k h => ?_⟩
  have hbits : 48 - 8 * k = 56 - 8 * (k + 1) := by omega
  rw [hbits]
  exact byteOf_wordOf_succ b v h

theorem Command.ofWord_toWord (c : Command) : Command.ofWord c.toWord = c := by
  simp only [Command.ofWord, Command.toWord, byteOf_wordOf_first, sevenOf_wordOf]

/-- Every word is the word of its command. -/
theorem Command.toWord_ofWord (w : Word64) : (Command.ofWord w).toWord = w := wordOf_bytes w

theorem Command.toWord_inj {c c' : Command} : c.toWord = c'.toWord ↔ c = c' :=
  Function.LeftInverse.injective Command.ofWord_toWord |>.eq_iff

/-- Settles O1, by `wordOf_layout` for the positions and `wordOf_bytes` for the way back. -/
theorem commandAndResponseLayout : Obligations.CommandAndResponseLayout :=
  ⟨Command.ofWord_toWord, Command.toWord_ofWord, fun c => wordOf_layout c.op c.arg,
    fun s => wordOf_layout s.status s.res⟩

/-! ### Decoding and encoding (R62, R65, R66) -/

/-- Every instruction's command decodes to it (R66). -/
theorem Laws.instr_commandDecodes (i : Instr) : Laws.CommandDecodes.Statement i := by
  cases i
  case decToBcd => exact CommandDecodes.decToBcd _
  case bcdToDec => exact CommandDecodes.bcdToDec _
  case setTime => exact CommandDecodes.setTime _ _ _ _ _ _ _
  case getTime => exact CommandDecodes.getTime
  case setAlarm => exact CommandDecodes.setAlarm _ _ _ _ _
  case enableAlarm => exact CommandDecodes.enableAlarm _
  case setTimer => exact CommandDecodes.setTimer _ _
  case setTimerMode => exact CommandDecodes.setTimerMode _
  case setTimerValue => exact CommandDecodes.setTimerValue _
  case getTimerMode => exact CommandDecodes.getTimerMode
  case getTimerValue => exact CommandDecodes.getTimerValue
  case packTimerMode => exact CommandDecodes.packTimerMode _ _ _ _
  case unpackTimerMode => exact CommandDecodes.unpackTimerMode _
  case setOffset => exact CommandDecodes.setOffset _ _
  case getOffset => exact CommandDecodes.getOffset
  case setControl1 => exact CommandDecodes.setControl1 _
  case getControl1 => exact CommandDecodes.getControl1
  case setControl2 => exact CommandDecodes.setControl2 _
  case getControl2 => exact CommandDecodes.getControl2
  case setRam => exact CommandDecodes.setRam _
  case getRam => exact CommandDecodes.getRam
  case getOS => exact CommandDecodes.getOS
  case clearOS => exact CommandDecodes.clearOS
  case packControl1 => exact CommandDecodes.packControl1 _ _ _ _ _ _
  case unpackControl1 => exact CommandDecodes.unpackControl1 _
  case packControl2 => exact CommandDecodes.packControl2 _ _ _ _ _ _
  case unpackControl2 => exact CommandDecodes.unpackControl2 _

theorem decodeCommand_command (i : Instr) : decodeCommand i.command = .ok i := (Laws.instr_commandDecodes i).1

theorem Instr.opcode_mem (i : Instr) : i.opcode ∈ opcodes := (Laws.instr_commandDecodes i).2

/-- Settles O3: the word of a command stands for that command, and the command of an instruction decodes to it. -/
theorem decodeOfEncodeIsTheInstruction : Obligations.DecodeOfEncodeIsTheInstruction := fun i => by
  rw [decode, encode, Command.ofWord_toWord, decodeCommand_command]

/-- The number of operand bytes an instruction names (R66). -/
def Instr.named (i : Instr) : Nat := i.call.operands.length

/-- The first `n` of seven bytes, the rest `0x00`. -/
def Seven.firstBytes (n : Nat) (v : Seven) : Seven :=
  #v[if 0 < n then v[0] else 0, if 1 < n then v[1] else 0, if 2 < n then v[2] else 0, if 3 < n then v[3] else 0,
    if 4 < n then v[4] else 0, if 5 < n then v[5] else 0, if 6 < n then v[6] else 0]

/-- A command with all but its first `n` operand bytes cleared. -/
def Command.clearFrom (n : Nat) (c : Command) : Command := ⟨c.op, c.arg.firstBytes n⟩

/-- A decoded instruction's own command is the one it was decoded from, its unnamed operand bytes cleared. -/
theorem command_of_decodeCommand {c : Command} {i : Instr} (h : decodeCommand c = .ok i) :
    i.command = c.clearFrom i.named := by
  unfold decodeCommand at h
  split at h
  case h_28 => cases h
  all_goals
    next hop =>
      cases h
      exact congrArg (Command.mk · _) (BitVec.eq_of_toNat_eq hop).symm

/-- The decoder ignores the operand bytes an instruction does not name (R65). -/
theorem decodeCommand_clearFrom_named (i : Instr) (v : Seven) :
    decodeCommand (Command.clearFrom i.named ⟨i.opcode, v⟩) = decodeCommand ⟨i.opcode, v⟩ := by
  cases i <;> rfl

theorem decodeCommand_eq_ok_iff {c : Command} {i : Instr} :
    decodeCommand c = .ok i ↔ c.clearFrom i.named = i.command := by
  refine ⟨fun h => (command_of_decodeCommand h).symm, fun h => ?_⟩
  have hop : c.op = i.opcode := congrArg Command.op h
  have hignored := decodeCommand_clearFrom_named i c.arg
  rw [← hop] at hignored
  rw [← hignored, h, decodeCommand_command]

theorem wordOf_and (b b' : Byte) (v v' : Seven) : wordOf b v &&& wordOf b' v' =
    wordOf (b &&& b')
      #v[v[0] &&& v'[0], v[1] &&& v'[1], v[2] &&& v'[2], v[3] &&& v'[3], v[4] &&& v'[4], v[5] &&& v'[5],
        v[6] &&& v'[6]] := by
  rw [wordOf, wordOf, BitVec.and_append, BitVec.and_append, BitVec.and_append, BitVec.and_append, BitVec.and_append,
    BitVec.and_append, BitVec.and_append]
  rfl

/-- The mask of the opcode byte and the first `n` operand bytes. -/
def firstBytesMask (n : Nat) : Word64 := wordOf 0xFF (Seven.firstBytes n #v[0xFF, 0xFF, 0xFF, 0xFF, 0xFF, 0xFF, 0xFF])

theorem Instr.usedBits_eq (i : Instr) : i.usedBits = firstBytesMask i.named := by
  cases i <;> simp only [Instr.usedBits, Instr.named, Instr.call, List.length_cons, List.length_nil] <;> decide

theorem and_firstBytesMask (w : Word64) (n : Nat) :
    w &&& firstBytesMask n = ((Command.ofWord w).clearFrom n).toWord := by
  have hbyte (p : Prop) [Decidable p] (b : Byte) : b &&& (if p then 0xFF#8 else 0#8) = if p then b else 0#8 := by
    split
    · exact BitVec.and_allOnes
    · exact BitVec.and_zero
  have hop : (byteOf w 0) &&& 0xFF = byteOf w 0 := BitVec.and_allOnes
  calc w &&& firstBytesMask n
    _ = wordOf (byteOf w 0) (sevenOf w) &&& firstBytesMask n := by rw [wordOf_bytes]
    _ = wordOf (byteOf w 0) ((sevenOf w).firstBytes n) := by
      rw [firstBytesMask, wordOf_and, hop]
      simp [Seven.firstBytes, hbyte]

/-- A word decodes to an instruction exactly when its used bits are those of the instruction's word (R62, R65). -/
theorem decode_eq_ok_iff {w : Word64} {i : Instr} : decode w = .ok i ↔ w &&& i.usedBits = encode i := by
  rw [Instr.usedBits_eq, and_firstBytesMask, encode, Command.toWord_inj]
  exact decodeCommand_eq_ok_iff

/-- Settles O4: both directions are `decode_eq_ok_iff`. -/
theorem encodeOfDecodeKeepsTheUsedBits : Obligations.EncodeOfDecodeKeepsTheUsedBits := by
  intro w i h
  rw [decode_eq_ok_iff] at h
  exact ⟨h.symm, fun w' hw' => decode_eq_ok_iff.mpr (hw'.trans h)⟩

theorem opcode_of_decode {w : Word64} {i : Instr} (h : decode w = .ok i) : i.opcode = byteOf w 0 :=
  congrArg Command.op (command_of_decodeCommand h)

/-- Each of the 27 opcode values selects an operation (R62). -/
theorem exists_decodeCommand_eq_ok {op : Byte} (h : op ∈ opcodes) (v : Seven) :
    ∃ i, decodeCommand ⟨op, v⟩ = .ok i := by
  fin_cases h <;> exact ⟨_, rfl⟩

/-- A word is a command exactly when its opcode byte is one of the 27 (R62, R67). -/
theorem exists_decode_eq_ok_iff {w : Word64} : (∃ i, decode w = .ok i) ↔ byteOf w 0 ∈ opcodes := by
  refine ⟨fun ⟨i, hi⟩ => ?_, fun h => exists_decodeCommand_eq_ok h (sevenOf w)⟩
  exact opcode_of_decode hi ▸ i.opcode_mem

theorem opcode_shifted (op : Byte) : op.zeroExtend 64 <<< 56 = wordOf op Seven.zero := by
  revert op
  decide


/-- The opcode bits of a word (R62). -/
theorem and_firstBytesMask_zero (w : Word64) : w &&& firstBytesMask 0 = (byteOf w 0).zeroExtend 64 <<< 56 := by
  rw [and_firstBytesMask, opcode_shifted]
  rfl

/-- Settles O2: legality by `exists_decode_eq_ok_iff`, the opcode by `opcode_of_decode`. -/
theorem opcodeAloneSelectsTheOperation : Obligations.OpcodeAloneSelectsTheOperation := by
  refine ⟨rfl, by decide, fun w => exists_decode_eq_ok_iff, fun w i h => ⟨opcode_of_decode h, ?_⟩⟩
  have hmask : ((0xFF00000000000000 : Nat) : Word64) = firstBytesMask 0 := by decide
  rw [opcode_of_decode h, ← and_firstBytesMask_zero, ← hmask]

/-! ### The written form (R72) -/

theorem instrOf_call (i : Instr) : instrOf i.call.mnemonic (i.call.operands.map AsmArg.toByte) = some i := by
  cases i <;> simp only [Instr.call, List.map, AsmArg.byte_toByte] <;> rfl

theorem assemble_of_wellFormed {c : AsmCall} (h : c.wellFormed = true) :
    assemble c = instrOf c.mnemonic (c.operands.map AsmArg.toByte) := if_pos h

/-- A negative number of 8 bits may be written for the `offset` of `setOffset` (R72). -/
theorem wellFormed_setOffset_negative (m : Byte) {n : Int} (h : -128 ≤ n) (h' : n < 0) :
    AsmCall.wellFormed ⟨"setOffset", [.byte m, .num n]⟩ = true := by
  have hoffset : (AsmArg.num n).legal "setOffset" 1 = true := by simp [AsmArg.legal, mayBeNegative, h, h']
  have hcount : operandCount "setOffset" = some 2 := rfl
  simp [AsmCall.wellFormed, legalOperands, AsmArg.byte_legal, hoffset, hcount]

/-- Settles O6: both written forms are well formed, and their bytes are the instruction's. -/
theorem writtenFormAssembles : Obligations.WrittenFormAssembles := by
  constructor
  · intro i
    rw [assemble_of_wellFormed (Laws.instr_wellFormed i), instrOf_call]
  · intro m n h h'
    have hassemble := assemble_of_wellFormed (wellFormed_setOffset_negative m h h')
    rwa [List.map_cons, AsmArg.byte_toByte] at hassemble

end Sys2Proof

namespace Sys2Proof.Machine

/-! ### The status of a response (R64, R150, R153) -/

/-- The status of a response over the transactions of its operation, oldest first: `OK` after none that failed, else the
failure of the last one, all before it having succeeded. -/
inductive FirstFailure : Byte → List Transaction → Prop where
  | none : FirstFailure 0x00 []
  | failed (e : BusErr) {tx : Transaction} : tx.status = e.code → FirstFailure e.code [tx]
  | succeeded {st tx new} : Transaction.status tx = 0x00 → FirstFailure st new → FirstFailure st (tx :: new)

/-- From `s` to `t` transactions were issued, and the response of `t` reports the first that failed. -/
def Reported (s t : State) : Prop := ∃ new, t.trace = s.trace ++ new ∧ FirstFailure t.status new

/-- One transaction that succeeds, then what follows it. -/
theorem Reported.after {s s1 t : State} {tx : Transaction} (htrace : s1.trace = s.trace ++ [tx])
    (hst : tx.status = 0x00) (h : Reported s1 t) : Reported s t := by
  obtain ⟨new, hnew, hfirst⟩ := h
  exact ⟨tx :: new, by rw [hnew, htrace, List.append_assoc]; rfl, .succeeded hst hfirst⟩

/-- A transaction that fails ends the operation with its status. -/
theorem reported_raise {s s1 : State} {tx : Transaction} {e : BusErr} (htrace : s1.trace = s.trace ++ [tx])
    (hst : tx.status = e.code) : Reported s (s1.raiseBusTransactionError e) :=
  ⟨[tx], htrace, .failed e hst⟩

theorem BusProgram.run_reported {p : BusProgram} {s t : State} (h : p.run s = .next t) : Reported s t := by
  induction p generalizing s with
  | respond l =>
    injection h with h
    exact h ▸ ⟨[], by simp, .none⟩
  | draw next ih => exact ih _ (s := s.drew) h
  | write a v next ih =>
    rw [BusProgram.run] at h
    rcases memWrite_cases a v s with ⟨-, hw⟩ | ⟨e, -, hw⟩ | ⟨-, hw⟩ <;> rw [hw] at h
    · exact (ih h).after (by simp [State.afterWrite]; rfl) rfl
    · injection h with h
      exact h ▸ reported_raise rfl rfl
    · cases h
  | read a n next ih =>
    rw [BusProgram.run] at h
    rcases memRead_cases a n s with ⟨-, hr⟩ | ⟨e, tx, -, hst, -, hr⟩ | ⟨-, hr⟩ <;> rw [hr] at h
    · exact (ih _ h).after (by simp [State.afterRead]; rfl) rfl
    · injection h with h
      exact h ▸ reported_raise rfl hst
    · cases h
  | rawRead next ih => exact (ih _ h).after (s := s) rfl rfl

theorem exec_reported {i : Instr} {s t : State} (h : exec i s = .next t) : Reported s t :=
  BusProgram.run_reported (exec_eq_run i s ▸ h)

theorem BusErr.code_ne_illegal (e : BusErr) : e.code ≠ 0xFF := by
  intro h
  have := e.legal.2
  simp [h] at this

theorem FirstFailure.ne_illegal {st : Byte} {new : List Transaction} (h : FirstFailure st new) : st ≠ 0xFF := by
  induction h with
  | none => decide
  | failed e _ => exact e.code_ne_illegal
  | succeeded _ _ ih => exact ih

theorem FirstFailure.all_succeeded {new : List Transaction} {st : Byte} (h : FirstFailure st new) (h0 : st = 0x00) :
    ∀ x ∈ new, x.status = 0x00 := by
  induction h with
  | none => simp
  | failed e _ => exact absurd h0 e.code_ne_zero
  | succeeded hst _ ih => exact List.forall_mem_cons.mpr ⟨hst, ih h0⟩

theorem FirstFailure.last_failed {new : List Transaction} {st : Byte} (h : FirstFailure st new) (h0 : st ≠ 0x00) :
    ∃ before last, new = before ++ [last] ∧ last.status = st ∧ ∀ x ∈ before, x.status = 0x00 := by
  induction h with
  | none => exact absurd rfl h0
  | failed e hst => exact ⟨[], _, rfl, hst, by simp⟩
  | succeeded hst _ ih =>
    obtain ⟨before, last, rfl, hlast, hbefore⟩ := ih h0
    exact ⟨_ :: before, last, rfl, hlast, List.forall_mem_cons.mpr ⟨hst, hbefore⟩⟩

/-- A word that is no command is answered so (R154). -/
theorem step_illegalCommand {s : State} {w : Word64} {rest : List Input} {e : DecodeError}
    (hi : s.inbox = .command w :: rest) (hd : decode w = .error e) :
    step s = .next (s.accept w rest).illegalCommand := by
  simp [step, hi, hd]

/-- Settles O52: a legal command by `exec_reported`, an illegal one issues nothing. -/
theorem statusIsTheFirstFailure : Obligations.StatusIsTheFirstFailure := by
  intro s t w rest hi h
  cases hd : decode w with
  | error e =>
    rw [step_illegalCommand hi hd] at h
    injection h with h
    subst h
    exact ⟨[], by simp, by simp [Config.statusIllegal], fun _ => rfl, fun _ => by simp, fun _ h => absurd rfl h⟩
  | ok i =>
    rw [step_command hi hd] at h
    obtain ⟨new, htrace, hfirst⟩ := exec_reported h
    have hlegal := hfirst.ne_illegal
    exact ⟨new, htrace, iff_of_false hlegal nofun, fun h => absurd h hlegal, hfirst.all_succeeded,
      fun h0 _ => hfirst.last_failed h0⟩

/-! ### The worked encodings (R74) -/

theorem decode_eq_of_encode_eq {i : Instr} {w : Word64} (h : encode i = w) : decode w = .ok i :=
  h ▸ decodeOfEncodeIsTheInstruction i

/-- A read answered with as many bytes as it asks for gives those bytes (R46). -/
theorem readGives_of_doneGiving {s : State} {d : List Byte} (h : s.nextAnswer = .doneGiving d) (a : Byte) :
    s.readGives a d.length = d := by
  simp [State.readGives, h, Answer.bytes]

/-- The response word of a `getTime` the device answers with seven bytes. -/
theorem exec_getTime_response {s : State} {d : List Byte} (h : s.nextAnswer = .doneGiving d) (hlen : d.length = 7) :
    ∃ t, exec .getTime s = .next t ∧ t.response = wordOf 0x00 (results (timeResults d)) := by
  have hsucceeds : s.nextAnswer.succeeds = true := by rw [h]; rfl
  obtain ⟨t, ht, hdone⟩ := (readOp_readsOnce 0x04 7 timeResults s).1 hsucceeds
  have hgives : s.readGives 0x04 7 = d := hlen ▸ readGives_of_doneGiving h 0x04
  refine ⟨t, ht, ?_⟩
  rw [State.response, Response.toWord, hdone.status, hdone.res, hgives]

/-- Settles O5: the words by evaluation of the encoder, decoding by O3, the responses by the laws of a read and of an
illegal command. -/
theorem workedEncodings : Obligations.WorkedEncodings := by
  have hsetTime : encode (.setTime 30 59 23 31 6 12 26) = 0x101E3B171F060C1A := by decide
  have hgetTime : encode .getTime = 0x1100000000000000 := by decide
  have henableAlarm : encode (.enableAlarm 0b00000001) = 0x2101000000000000 := by decide
  have hsetOffset : encode (.setOffset 1 (BitVec.ofInt 8 (-10))) = 0x4001F60000000000 := by decide
  refine ⟨hsetTime, decode_eq_of_encode_eq hsetTime, hgetTime, decode_eq_of_encode_eq hgetTime, henableAlarm,
    decode_eq_of_encode_eq henableAlarm, hsetOffset, decode_eq_of_encode_eq hsetOffset, fun s h => ?_,
    fun s w rest hi hop => ?_⟩
  · obtain ⟨t, ht, hresponse⟩ := exec_getTime_response h rfl
    exact ⟨t, ht, hresponse.trans (by decide)⟩
  · have hillegal : ¬ ∃ i, decode w = .ok i := by
      rw [exists_decode_eq_ok_iff, show byteOf w 0 = 0x7E from hop]
      decide
    cases hd : decode w with
    | ok i => exact absurd ⟨i, hd⟩ hillegal
    | error e =>
      have hresponse : wordOf Config.statusIllegal Seven.zero = 0xFF00000000000000 := by decide
      exact ⟨_, step_illegalCommand hi hd, hresponse⟩

end Sys2Proof.Machine
end

section
/-! PROOFS. The statements of 40_bcd.md: the codec and the clamp, as facts about the number of a byte. -/

namespace Sys2Proof.Machine

/-! ### The codec (R81, R83) -/

/-- The tens digit lies above the four bits of the units digit, so the two are added and fit 8 bits (R81, R87). -/
theorem toNat_bcd {x : Byte} (h : x.toNat ≤ 99) : (bcd x).toNat = x.toNat / 10 * 16 + x.toNat % 10 := by
  have hunits : x.toNat % 10 < 2 ^ 4 := by omega
  rw [bcd, ← Nat.shiftLeft_add_eq_or_of_lt hunits, Nat.shiftLeft_eq, BitVec.toNat_ofNat]
  omega

theorem bcd_tens {x : Byte} (h : x.toNat ≤ 99) : (bcd x).toNat / 16 = x.toNat / 10 := by
  rw [toNat_bcd h]
  omega

theorem bcd_units {x : Byte} (h : x.toNat ≤ 99) : (bcd x).toNat % 16 = x.toNat % 10 := by
  rw [toNat_bcd h]
  omega

/-- Both digits of a packed byte are decimal (R81). -/
theorem bcd_digits_le_nine {x : Byte} (h : x.toNat ≤ 99) : (bcd x).toNat / 16 ≤ 9 ∧ (bcd x).toNat % 16 ≤ 9 := by
  rw [bcd_tens h, bcd_units h]
  omega

/-- Bit 7 of a packed byte (R81, R88). -/
theorem bcd_bit7_iff {x : Byte} (h : x.toNat ≤ 99) : (bcd x).toNat ≥ 0x80 ↔ x.toNat ≥ 80 := by
  rw [toNat_bcd h]
  omega

/-- Packing keeps the order of numbers up to 99 (R88). -/
theorem toNat_bcd_le {x : Byte} {m : Nat} (hx : x.toNat ≤ m) (hm : m ≤ 99) :
    (bcd x).toNat ≤ m / 10 * 16 + m % 10 := by
  rw [toNat_bcd (hx.trans hm)]
  omega

/-- The formula of R83 never exceeds 8 bits (R84, R87). -/
theorem toNat_bcdToDec (b : Byte) : (bcdToDec b).toNat = b.toNat / 16 * 10 + b.toNat % 16 := by
  have hb : b.toNat < 256 := b.isLt
  have hunits : b.toNat &&& 0x0F = b.toNat % 16 := Nat.and_two_pow_sub_one_eq_mod b.toNat 4
  rw [bcdToDec, hunits, Nat.shiftRight_eq_div_pow, BitVec.toNat_ofNat]
  omega

theorem bcdToDec_bcd {x : Byte} (h : x.toNat ≤ 99) : bcdToDec (bcd x) = x := by
  apply BitVec.eq_of_toNat_eq
  rw [toNat_bcdToDec, bcd_tens h, bcd_units h]
  omega

/-- A byte of two decimal digits is the packing of its value (R86). -/
theorem bcd_bcdToDec {b : Byte} (htens : b.toNat / 16 ≤ 9) (hunits : b.toNat % 16 ≤ 9) : bcd (bcdToDec b) = b := by
  apply BitVec.eq_of_toNat_eq
  have hvalue := toNat_bcdToDec b
  rw [toNat_bcd (by omega)]
  omega

/-! ### The clamp (R85) -/

theorem clamp_of_le {x : Byte} {m : Nat} (h : x.toNat ≤ m) : clamp x m = x := if_neg (Nat.not_lt.mpr h)

theorem clamp_of_gt {x : Byte} {m : Nat} (h : x.toNat > m) : clamp x m = 0x00 := if_pos h

theorem toNat_clamp_le (x : Byte) (m : Nat) : (clamp x m).toNat ≤ m := by
  rcases Nat.lt_or_ge m x.toNat with h | h
  · rw [clamp_of_gt h]
    exact Nat.zero_le m
  · rwa [clamp_of_le h]

/-- A clamped byte reaches a bound above 0 only as the operand itself. -/
theorem le_toNat_clamp_iff {k : Nat} (hk : 0 < k) (x : Byte) (m : Nat) :
    k ≤ (clamp x m).toNat ↔ k ≤ x.toNat ∧ x.toNat ≤ m := by
  rcases Nat.lt_or_ge m x.toNat with h | h
  · simp [clamp_of_gt h, Nat.not_le.mpr h, hk.ne']
  · simp [clamp_of_le h, h]

/-- Every maximum of R85 is at most 99, and only that of the year is above 79. -/
theorem clampMaximum_bounds : ∀ m ∈ [maxSeconds, maxMinutes, maxHours, maxDay, maxWeekday, maxMonth, maxYear],
    m ≤ 99 ∧ (80 ≤ m → m = 99) := by
  decide

/-! ### The commands -/

theorem exec_decToBcd_of_le {v : Byte} (h : v.toNat ≤ 99) (s : State) :
    exec (.decToBcd v) s = .next (s.respond [bcd v]) := if_pos h

theorem exec_decToBcd_of_gt {v : Byte} (h : v.toNat > 99) (s : State) :
    exec (.decToBcd v) s = .next (s.drew.respond [s.drawn]) := if_neg (Nat.not_le.mpr h)

theorem exec_bcdToDec (b : Byte) (s : State) : exec (.bcdToDec b) s = .next (s.respond [bcdToDec b]) := rfl

/-- Settles O17: the byte is `bcd v`, whose digits and bit 7 are those of `toNat_bcd`. -/
theorem decToBcdPacksTheDigits : Obligations.DecToBcdPacksTheDigits := by
  refine fun v => ⟨rfl, fun hv s => ⟨bcd v, exec_decToBcd_of_le hv s, toNat_bcd hv, ?_⟩⟩
  obtain ⟨htens, hunits⟩ := bcd_digits_le_nine hv
  exact ⟨htens, hunits, bcd_bit7_iff hv⟩

/-- Settles O18: the free value is the draw of `exec_decToBcd_of_gt`, and a clamped operand is at most its maximum. -/
theorem decToBcdAbove99IsAnyByte : Obligations.DecToBcdAbove99IsAnyByte := by
  refine ⟨fun v s hv => exec_decToBcd_of_gt hv s, fun x m hm => ?_⟩
  obtain ⟨hm99, -⟩ := clampMaximum_bounds m hm
  exact (toNat_clamp_le x m).trans hm99

/-- Settles O19: the byte is `bcdToDec b`, its number that of `toNat_bcdToDec`; two nibbles of 15 give the largest. -/
theorem bcdToDecOnEveryByte : Obligations.BcdToDecOnEveryByte := by
  refine fun b => ⟨rfl, fun s => ⟨bcdToDec b, exec_bcdToDec b s, toNat_bcdToDec b, ?_⟩⟩
  have hb : b.toNat < 256 := b.isLt
  rw [toNat_bcdToDec]
  omega

/-- Settles O20: a byte that is the packing of a value at most 99 has decimal digits, and `bcd_bcdToDec` is the way
back. -/
theorem bcdRoundTrip : Obligations.BcdRoundTrip := by
  refine ⟨fun x hx => bcdToDec_bcd hx, fun b hb => ⟨fun h => ?_, fun ⟨htens, hunits⟩ => bcd_bcdToDec htens hunits⟩⟩
  have hdigits := bcd_digits_le_nine hb
  rwa [h] at hdigits

/-- Settles O21: a field is the packing of its clamped operand, so bit 7 asks for an operand from 80 up to a maximum that
is then 99. -/
theorem clampedFieldsAreBcd : Obligations.ClampedFieldsAreBcd := by
  refine ⟨rfl, fun x m => rfl, fun x m hm => ?_⟩
  obtain ⟨hm99, hyear⟩ := clampMaximum_bounds m hm
  have hclamp : (clamp x m).toNat ≤ m := toNat_clamp_le x m
  obtain ⟨htens, hunits⟩ := bcd_digits_le_nine (hclamp.trans hm99)
  refine ⟨toNat_bcd_le hclamp hm99, htens, hunits, ?_⟩
  calc (bcdField m x).toNat ≥ 0x80
    _ ↔ 80 ≤ (clamp x m).toNat := bcd_bit7_iff (hclamp.trans hm99)
    _ ↔ 80 ≤ x.toNat ∧ x.toNat ≤ m := le_toNat_clamp_iff (by decide) x m
    _ ↔ m = 99 ∧ 80 ≤ x.toNat ∧ x.toNat ≤ 99 := by omega

end Sys2Proof.Machine
end

section
/-! PROOFS. The statements of 41_time.md: the two transactions of the time operations, and what a field becomes on its way
into a register and back. -/

namespace Sys2Proof.Machine

/-! ### The storing mock (R53) -/

theorem State.storing.nextAnswer {s : State} (h : s.storing) : s.nextAnswer = .done := nextAnswer_of_storing h.1 h.2

theorem State.storing.succeeds {s : State} (h : s.storing) : s.nextAnswer.succeeds = true := by
  rw [h.nextAnswer]; rfl

/-- The storing mock answers a read with the register image as it stands. -/
theorem State.storing.readGives {s : State} (h : s.storing) (a : Byte) (n : Nat) :
    s.readGives a n = s.regs.reads a.toNat n := by
  rw [readGives_of_done h.nextAnswer, State.reach_of_nil h.1]

/-- The environment stays the storing mock through a write. -/
theorem Wrote.storing {s t : State} {a : Byte} {v : List Byte} (h : Wrote s t a v) (hs : s.storing) : t.storing := by
  obtain ⟨hscript, hfailure⟩ := hs
  exact ⟨by rw [h.script, hscript]; rfl, h.same.failure.trans hfailure⟩

/-! ### The registers after a write -/

/-- The registers a write went to read back as its payload (R45, R46). -/
theorem Wrote.reads {s t : State} {a : Byte} {v : List Byte} (h : Wrote s t a v) :
    t.regs.reads a.toNat v.length = v := by
  refine List.ext_getElem (Memory.reads_length _ _ _) fun k hr hv => ?_
  rw [Memory.reads_getElem, h.inside k hv]

/-- After the same write from two states, a register that read alike in both still does. -/
theorem Wrote.read_congr {s s' t t' : State} {a : Byte} {v : List Byte} {x : Nat} (h : Wrote s t a v)
    (h' : Wrote s' t' a v) (hx : s'.reach.regs.read x = s.reach.regs.read x) : t'.regs.read x = t.regs.read x := by
  by_cases hin : a.toNat ≤ x ∧ x < a.toNat + v.length
  · obtain ⟨k, rfl⟩ := Nat.exists_eq_add_of_le hin.1
    have hk : k < v.length := by omega
    rw [h.inside k hk, h'.inside k hk]
  · have hout : x < a.toNat ∨ a.toNat + v.length ≤ x := by omega
    rw [h.outside x hout, h'.outside x hout, hx]

/-- A write to a lower register is not seen by a read of the registers above it. -/
theorem Memory.reads_write_below (m : Memory) {a x : Nat} (b : Byte) (h : x < a) (n : Nat) :
    (m.write x b).reads a n = m.reads a n := by
  refine List.ext_getElem (by simp) fun k hk hk' => ?_
  rw [Memory.reads_getElem, Memory.reads_getElem, Memory.read_write_other m b (by omega)]

/-! ### A field in its register (R85, R90) -/

theorem bcdField_of_le {x : Byte} {m : Nat} (h : x.toNat ≤ m) : bcdField m x = bcd x := by
  rw [bcdField, clamp_of_le h]

theorem bcdField_of_gt {x : Byte} {m : Nat} (h : x.toNat > m) : bcdField m x = 0x00 := by
  rw [bcdField, clamp_of_gt h]; rfl

theorem osFlag_of_lt {b : Byte} (h : b.toNat < 0x80) : osFlag b = 0 := by
  apply BitVec.eq_of_toNat_eq
  rw [osFlag, BitVec.toNat_ushiftRight, Nat.shiftRight_eq_div_pow]
  exact Nat.div_eq_of_lt h

/-- A seconds field is at most `0x59`, so it clears OS (R27, R91). -/
theorem osFlag_bcdField_seconds (x : Byte) : osFlag (bcdField maxSeconds x) = 0 :=
  osFlag_of_lt (Nat.lt_of_le_of_lt (toNat_bcd_le (toNat_clamp_le x maxSeconds) (by decide)) (by decide))

/-! ### A register as a field (R93) -/

/-- A mask takes away from each nibble, so a decoded field is at most what its mask itself decodes to (R94). -/
theorem toNat_decField_le (mask b : Byte) : (decField mask b).toNat ≤ (bcdToDec mask).toNat := by
  have htens : (b &&& mask).toNat / 16 ≤ mask.toNat / 16 := Nat.div_le_div_right (by simpa using Nat.and_le_right)
  have hunits : (b &&& mask).toNat % 16 ≤ mask.toNat % 16 := by
    rw [BitVec.toNat_and, Nat.and_mod_two_pow (n := 4)]
    exact Nat.and_le_right
  rw [decField, toNat_bcdToDec, toNat_bcdToDec]
  omega

/-- A mask of the low `n` bits takes the remainder by `2 ^ n`. -/
theorem toNat_and_lowMask {mask : Byte} {n : Nat} (hmask : mask.toNat = 2 ^ n - 1) (b : Byte) :
    (b &&& mask).toNat = b.toNat % 2 ^ n := by
  rw [BitVec.toNat_and, hmask, Nat.and_two_pow_sub_one_eq_mod]

/-- A mask as wide as the BCD byte of the maximum gives back every value up to it (R96). -/
theorem decField_bcd {mask x : Byte} {n m : Nat} (hmask : mask.toNat = 2 ^ n - 1) (hm : m ≤ 99)
    (hwide : m / 10 * 16 + m % 10 < 2 ^ n) (hx : x.toNat ≤ m) : decField mask (bcd x) = x := by
  have hkept : bcd x &&& mask = bcd x := by
    apply BitVec.eq_of_toNat_eq
    rw [toNat_and_lowMask hmask, Nat.mod_eq_of_lt (Nat.lt_of_le_of_lt (toNat_bcd_le hx hm) hwide)]
  rw [decField, hkept, bcdToDec_bcd (hx.trans hm)]

/-- The year's mask drops bit 7 of the BCD byte, which stands for 80 (R88, R96). -/
theorem decField_bcd_year {x : Byte} (hx : x.toNat ≤ 99) :
    decField mask7 (bcd x) = if x.toNat ≤ 79 then x else x - 80 := by
  split
  case isTrue hlow => exact decField_bcd (n := 7) rfl (by decide) (by decide) hlow
  case isFalse hhigh =>
    have hmasked : (bcd x &&& mask7).toNat = (x.toNat / 10 * 16 + x.toNat % 10) % 2 ^ 7 := by
      rw [toNat_and_lowMask (n := 7) rfl, toNat_bcd hx]
    have hminus : (x - 80).toNat = x.toNat - 80 := BitVec.toNat_sub_of_le (Nat.lt_of_not_le hhigh)
    apply BitVec.eq_of_toNat_eq
    rw [decField, toNat_bcdToDec, hmasked, hminus]
    omega

/-- What `getTime` makes of the bytes `setTime` sends for operands within their maxima (R96). -/
theorem timeResults_timePayload {sec min hr day wd mon yr : Byte} (hsec : sec.toNat ≤ maxSeconds)
    (hmin : min.toNat ≤ maxMinutes) (hhr : hr.toNat ≤ maxHours) (hday : day.toNat ≤ maxDay) (hwd : wd.toNat ≤ maxWeekday)
    (hmon : mon.toNat ≤ maxMonth) (hyr : yr.toNat ≤ maxYear) :
    timeResults (timePayload sec min hr day wd mon yr) =
      [sec, min, hr, day, wd, mon, if yr.toNat ≤ 79 then yr else yr - 80] := by
  have hpayload : timePayload sec min hr day wd mon yr =
      [bcd sec, bcd min, bcd hr, bcd day, bcd wd, bcd mon, bcd yr] := by
    rw [timePayload, bcdField_of_le hsec, bcdField_of_le hmin, bcdField_of_le hhr, bcdField_of_le hday,
      bcdField_of_le hwd, bcdField_of_le hmon, bcdField_of_le hyr]
  calc timeResults (timePayload sec min hr day wd mon yr)
    _ = [decField mask7 (bcd sec), decField mask7 (bcd min), decField mask6 (bcd hr), decField mask6 (bcd day),
          decField mask3 (bcd wd), decField mask5 (bcd mon), decField mask7 (bcd yr)] := by rw [hpayload]; rfl
    _ = [sec, min, hr, day, wd, mon, if yr.toNat ≤ 79 then yr else yr - 80] := by
      rw [decField_bcd (n := 7) rfl (by decide) (by decide) hsec, decField_bcd (n := 7) rfl (by decide) (by decide) hmin,
        decField_bcd (n := 6) rfl (by decide) (by decide) hhr, decField_bcd (n := 6) rfl (by decide) (by decide) hday,
        decField_bcd (n := 3) rfl (by decide) (by decide) hwd, decField_bcd (n := 5) rfl (by decide) (by decide) hmon,
        decField_bcd_year hyr]

/-! ### The operations -/

theorem setTime_writesOnce (sec min hr day wd mon yr : Byte) (s : State) :
    WritesOnce (.setTime sec min hr day wd mon yr) 0x04 (timePayload sec min hr day wd mon yr) s :=
  writeOp_endsInWrite 0x04 _ s

theorem getTime_readsOnce (s : State) : ReadsOnce .getTime 0x04 7 timeResults s := readOp_readsOnce 0x04 7 timeResults s

theorem setTime_of_succeeds (sec min hr day wd mon yr : Byte) {s : State} (h : s.nextAnswer.succeeds = true) :
    ∃ t, exec (.setTime sec min hr day wd mon yr) s = .next t ∧ Wrote s t 0x04 (timePayload sec min hr day wd mon yr) :=
  (setTime_writesOnce sec min hr day wd mon yr s).1 h

theorem getTime_of_succeeds {s : State} (h : s.nextAnswer.succeeds = true) :
    ∃ t, exec .getTime s = .next t ∧ ReadDone s t 0x04 7 (timeResults (s.readGives 0x04 7)) :=
  (getTime_readsOnce s).1 h

/-- The time registers after a `setTime` that succeeded, one by one (R90). -/
theorem Wrote.timeRegisters {s t : State} {sec min hr day wd mon yr : Byte}
    (h : Wrote s t 0x04 (timePayload sec min hr day wd mon yr)) :
    t.regs.read 0x04 = bcdField maxSeconds sec ∧ t.regs.read 0x05 = bcdField maxMinutes min ∧
      t.regs.read 0x06 = bcdField maxHours hr ∧ t.regs.read 0x07 = bcdField maxDay day ∧
      t.regs.read 0x08 = bcdField maxWeekday wd ∧ t.regs.read 0x09 = bcdField maxMonth mon ∧
      t.regs.read 0x0A = bcdField maxYear yr := by
  simpa [Memory.reads, timePayload] using h.reads

/-- Settles O22: the payload of the statement is `timePayload`. -/
theorem setTimeWritesTheTimeRegisters : Obligations.SetTimeWritesTheTimeRegisters :=
  fun sec min hr day wd mon yr => ⟨rfl, setTime_writesOnce sec min hr day wd mon yr⟩

/-- Settles O23: the results of the statement are `timeResults`. -/
theorem getTimeDecodesTheTimeRegisters : Obligations.GetTimeDecodesTheTimeRegisters :=
  ⟨by decide, getTime_readsOnce⟩

/-- Settles O24: each result is a decoded field, bounded by its mask. -/
theorem getTimeResultsAreBounded : Obligations.GetTimeResultsAreBounded := by
  intro s h
  obtain ⟨t, ht, hdone⟩ := getTime_of_succeeds h
  have h7 (b : Byte) : (decField mask7 b).toNat ≤ 85 := toNat_decField_le mask7 b
  have h6 (b : Byte) : (decField mask6 b).toNat ≤ 45 := toNat_decField_le mask6 b
  have h5 (b : Byte) : (decField mask5 b).toNat ≤ 25 := toNat_decField_le mask5 b
  have h3 (b : Byte) : (decField mask3 b).toNat ≤ 7 := toNat_decField_le mask3 b
  refine ⟨t, ht, ?_⟩
  rw [hdone.res]
  exact ⟨h7 _, h7 _, h6 _, h6 _, h3 _, h5 _, h7 _, rfl⟩

/-- Settles O25: the storing mock gives the payload back, and decoding it gives the operands. -/
theorem setTimeGetTimeRoundTrip : Obligations.SetTimeGetTimeRoundTrip := by
  intro sec min hr day wd mon yr s hs hsec hmin hhr hday hwd hmon hyr
  obtain ⟨t, ht, hwrote⟩ := setTime_of_succeeds sec min hr day wd mon yr hs.succeeds
  have hstoring : t.storing := hwrote.storing hs
  obtain ⟨u, hu, hdone⟩ := getTime_of_succeeds hstoring.succeeds
  have hgives : t.readGives 0x04 7 = timePayload sec min hr day wd mon yr :=
    (hstoring.readGives 0x04 7).trans hwrote.reads
  refine ⟨t, u, ht, hu, hdone.status, ?_⟩
  rw [hdone.res, hgives, timeResults_timePayload hsec hmin hhr hday hwd hmon hyr]
  rfl

/-- Settles O26: each time register holds its field, and the write reaches no other register. -/
theorem setTimeClearsOSAndClamps : Obligations.SetTimeClearsOSAndClamps := by
  intro sec min hr day wd mon yr s h
  obtain ⟨t, ht, hwrote⟩ := setTime_of_succeeds sec min hr day wd mon yr h
  obtain ⟨hsec, hmin, hhr, hday, hwd, hmon, hyr⟩ := hwrote.timeRegisters
  refine ⟨t, ht, by rw [hsec, osFlag_bcdField_seconds], fun x hx => hwrote.outside x (hx.imp_left Nat.lt_succ_of_le), ?_⟩
  exact ⟨fun h => hsec.trans (bcdField_of_gt h), fun h => hmin.trans (bcdField_of_gt h),
    fun h => hhr.trans (bcdField_of_gt h), fun h => hday.trans (bcdField_of_gt h), fun h => hwd.trans (bcdField_of_gt h),
    fun h => hmon.trans (bcdField_of_gt h), fun h => hyr.trans (bcdField_of_gt h)⟩

/-- Settles O27: Control1 lies below the seven registers that are read, and a write leaves registers alike that were. -/
theorem timeIgnoresTheHourModeBit : Obligations.TimeIgnoresTheHourModeBit := by
  intro s c sec min hr day wd mon yr hs
  have hs' : State.storing { s with regs := s.regs.write 0x00 c } := hs
  constructor
  · obtain ⟨t, ht, hdone⟩ := getTime_of_succeeds hs.succeeds
    obtain ⟨t', ht', hdone'⟩ := getTime_of_succeeds hs'.succeeds
    have hbytes : State.readGives { s with regs := s.regs.write 0x00 c } 0x04 7 = s.readGives 0x04 7 := by
      rw [hs'.readGives, hs.readGives]
      exact Memory.reads_write_below s.regs c (by decide) 7
    exact ⟨t, t', ht, ht', hdone'.status.trans hdone.status.symm, by rw [hdone'.res, hdone.res, hbytes]⟩
  · obtain ⟨t, ht, hwrote⟩ := setTime_of_succeeds sec min hr day wd mon yr hs.succeeds
    obtain ⟨t', ht', hwrote'⟩ := setTime_of_succeeds sec min hr day wd mon yr hs'.succeeds
    refine ⟨t, t', ht, ht', hwrote'.status.trans hwrote.status.symm, hwrote'.res.trans hwrote.res.symm, fun x hx => ?_⟩
    refine hwrote.read_congr hwrote' ?_
    rw [State.reach_of_nil hs.1, State.reach_of_nil hs'.1]
    exact Memory.read_write_other s.regs c hx

end Sys2Proof.Machine
end

section
/-! PROOFS. The statements of 42_alarm.md: the disable bit an enable mask asks for, what the alarm registers hold after
each operation, and the read followed by a write of `enableAlarm` without the quirk. -/

namespace Sys2Proof.Machine

/-! ### The disable bit (R28, R103) -/

/-- The polarity is inverted: a mask bit of 1 enables, which is a disable bit of 0 (R102, R103). -/
theorem disableBit_eq (mask : Byte) {i : Nat} (h : i < 8) :
    disableBit mask i = if mask.getLsbD i then 0x00 else 0x80 := by
  have hbit : bitAt (~~~mask) i = BitVec.setWidth 8 (BitVec.ofBool !mask.getLsbD i) := by
    refine BitVec.and_one_eq_setWidth_ofBool_getLsbD.trans ?_
    rw [BitVec.getLsbD_ushiftRight, BitVec.getLsbD_not]
    simp [h]
  rw [disableBit, hbit]
  cases mask.getLsbD i <;> rfl

/-- The disable bits alone hold no value (R103). -/
theorem low7_disableBit (mask : Byte) {i : Nat} (h : i < 8) : low7 (disableBit mask i) = 0x00 := by
  rw [disableBit_eq mask h]
  cases mask.getLsbD i <;> rfl

/-- Setting the disable bit keeps the value (R104). -/
theorem low7_withDisableBit (mask b : Byte) {i : Nat} (h : i < 8) : low7 (withDisableBit mask i b) = low7 b :=
  calc low7 (withDisableBit mask i b)
    _ = low7 (low7 b) ||| low7 (disableBit mask i) := BitVec.and_or_distrib_right
    _ = low7 (low7 b) := by rw [low7_disableBit mask h]; exact BitVec.or_zero
    _ = low7 b := by rw [low7, low7, BitVec.and_assoc, BitVec.and_self]

/-- Whatever the register held, bit 7 becomes the inverse of the mask bit (R103, R104). -/
theorem withDisableBit_bit7 (mask b : Byte) {i : Nat} (h : i < 8) :
    (withDisableBit mask i b).getLsbD 7 = !mask.getLsbD i := by
  have hvalue : (low7 b).getLsbD 7 = false := by simp [low7]
  rw [withDisableBit, disableBit_eq mask h, BitVec.getLsbD_or, hvalue]
  cases mask.getLsbD i <;> rfl

/-! ### A field in its alarm register (R100, R101) -/

theorem or_alarmDisable_bit7 (b : Byte) : (b ||| alarmDisable).getLsbD 7 = true := by
  rw [BitVec.getLsbD_or]
  exact Bool.or_true _

/-- A day is at most `0x31`, so it never sets its disable bit (R101). -/
theorem bcdField_day_bit7 (day : Byte) : (bcdField maxDay day).getLsbD 7 = false :=
  Nat.testBit_lt_two_pow (Nat.lt_of_le_of_lt (toNat_bcd_le (toNat_clamp_le day maxDay) (by decide)) (by decide))

/-- `setAlarm` disables every field but the day, the fourth (R100, R105). -/
theorem alarmPayload_bit7 (sec min hr day wd : Byte) :
    ∀ i (h : i < 5), ((alarmPayload sec min hr day wd)[i]'h).getLsbD 7 = decide (i ≠ 3)
  | 0, _ | 1, _ | 2, _ | 4, _ => or_alarmDisable_bit7 _
  | 3, _ => bcdField_day_bit7 day

/-! ### The payloads of `enableAlarm`, one byte after the other (R103, R104) -/

theorem clobberPayload_eq_map (mask : Byte) : clobberPayload mask = (List.range 5).map (disableBit mask) := rfl

theorem preservingPayload_eq_map (mask : Byte) (d : List Byte) :
    preservingPayload mask d = (List.range 5).map fun i => withDisableBit mask i (byteAt d i) := rfl

/-! ### A read that does not succeed -/

theorem memRead_of_failure {s : State} {e : BusErr} (h : s.nextAnswer.failure = some e) (a : Byte) (n : Nat) :
    ∃ s1, memRead a n s = .failed e s1 ∧ ReadFailed s (s1.raiseBusTransactionError e) a n e.code := by
  rcases memRead_cases a n s with ⟨hok, -⟩ | ⟨e', tx, he, -, htx, hr⟩ | ⟨hn, -⟩
  · simp [(Answer.failure_excludes h).1] at hok
  · obtain rfl : e' = e := Option.some.inj (he.symm.trans h)
    exact ⟨_, hr, readFailed_of_issued s a n e' htx⟩
  · exact absurd hn (Answer.failure_excludes h).2

theorem memRead_of_never {s : State} (h : s.nextAnswer = .never) (a : Byte) (n : Nat) : memRead a n s = .stuck := by
  simp [memRead, h]

/-- An operation that begins with a read goes on with the bytes read, or ends with the read's failure and nothing more
issued, or never ends (R104, R140, R153, R155). -/
theorem memRead_andThen (a : Byte) (n : Nat) (k : List Byte → State → Host.Outcome State Fault Refusal) (s : State) :
    (s.nextAnswer.succeeds = true → (memRead a n s).andThen k = k (s.readGives a n) (s.afterRead a n)) ∧
    (∀ e, s.nextAnswer.failure = some e →
      ∃ t, (memRead a n s).andThen k = .next t ∧ ReadFailed s t a n e.code) ∧
    (s.nextAnswer = .never → (memRead a n s).andThen k = .fault .transportNeverCompletes) := by
  refine ⟨fun h => ?_, fun e h => ?_, fun h => ?_⟩
  · rw [memRead_of_succeeds h]; rfl
  · obtain ⟨s1, hr, hfailed⟩ := memRead_of_failure h a n
    exact ⟨_, by rw [hr]; rfl, hfailed⟩
  · rw [memRead_of_never h]; rfl

/-- The environment stays the storing mock through a read. -/
theorem State.storing.afterRead {s : State} (h : s.storing) (a : Byte) (n : Nat) : (s.afterRead a n).storing := by
  obtain ⟨hscript, hfailure⟩ := h
  exact ⟨by rw [State.afterRead_script, hscript]; rfl, (transacted_afterRead s a n).same.failure.trans hfailure⟩

/-! ### The operations -/

theorem setAlarm_writesOnce (sec min hr day wd : Byte) (s : State) :
    WritesOnce (.setAlarm sec min hr day wd) 0x0B (alarmPayload sec min hr day wd) s :=
  writeOp_endsInWrite 0x0B _ s

theorem exec_enableAlarm_of_clobber {s : State} (hc : s.alarmEnableClobber = true) (mask : Byte) :
    exec (.enableAlarm mask) s = writeOp 0x0B (clobberPayload mask) s := if_pos hc

theorem exec_enableAlarm_of_not_clobber {s : State} (hc : s.alarmEnableClobber = false) (mask : Byte) :
    exec (.enableAlarm mask) s =
      (memRead 0x0B 5 s).andThen fun d s1 => writeOp 0x0B (preservingPayload mask d) s1 :=
  if_neg (Bool.eq_false_iff.mp hc)

theorem enableAlarm_writesOnce {s : State} (hc : s.alarmEnableClobber = true) (mask : Byte) :
    WritesOnce (.enableAlarm mask) 0x0B (clobberPayload mask) s := by
  rw [WritesOnce, exec_enableAlarm_of_clobber hc]
  exact writeOp_endsInWrite 0x0B _ s

/-- Without the quirk the read is followed by one write of what was read, with new disable bits (R104). -/
theorem enableAlarm_endsInWrite {s : State} (hc : s.alarmEnableClobber = false) (h : s.nextAnswer.succeeds = true)
    (mask : Byte) :
    EndsInWrite (exec (.enableAlarm mask) s) (s.afterRead 0x0B 5) 0x0B
      (preservingPayload mask (s.readGives 0x0B 5)) := by
  rw [exec_enableAlarm_of_not_clobber hc, (memRead_andThen 0x0B 5 _ s).1 h]
  exact writeOp_endsInWrite 0x0B _ _

/-- Settles O28: the payload of the statement is `alarmPayload`. -/
theorem setAlarmWritesTheAlarmRegisters : Obligations.SetAlarmWritesTheAlarmRegisters :=
  fun sec min hr day wd => ⟨rfl, setAlarm_writesOnce sec min hr day wd⟩

/-- Settles O29: the payload is the five disable bits, each of the value of `disableBit_eq`. -/
theorem enableAlarmClobbersTheValues : Obligations.EnableAlarmClobbersTheValues := by
  refine fun m => ⟨rfl, fun s hc => ?_⟩
  have hwrites : WritesOnce (.enableAlarm m) 0x0B (clobberPayload m) s := enableAlarm_writesOnce hc m
  have hpayload : clobberPayload m = (List.range 5).map fun i => if m.getLsbD i then 0x00 else 0x80 := by
    rw [clobberPayload_eq_map]
    exact List.map_congr_left fun i hi => disableBit_eq m ((List.mem_range.mp hi).trans (by decide))
  rw [hpayload] at hwrites
  exact hwrites

/-- Settles O30: the payload of the statement is `preservingPayload`, and the read's failures are those of
`memRead_andThen`. -/
theorem enableAlarmWithoutTheQuirkKeepsTheValues : Obligations.EnableAlarmWithoutTheQuirkKeepsTheValues := by
  intro m s hc
  refine ⟨fun h => enableAlarm_endsInWrite hc h m, ?_⟩
  rw [exec_enableAlarm_of_not_clobber hc]
  exact (memRead_andThen 0x0B 5 _ s).2

/-- Settles O31: the storing mock gives the read the registers as they stand, and the write changes bit 7 alone. -/
theorem enableAlarmCompletesWithoutTheQuirk : Obligations.EnableAlarmCompletesWithoutTheQuirk := by
  intro m s hs hc
  have hmid : (s.afterRead 0x0B 5).storing := hs.afterRead 0x0B 5
  have hmidRegs : (s.afterRead 0x0B 5).reach.regs = s.regs := by
    rw [State.reach_of_nil hmid.1, State.afterRead_regs, State.reach_of_nil hs.1]
  obtain ⟨t, ht, hwrote⟩ := (enableAlarm_endsInWrite hc hs.succeeds m).1 hmid.succeeds
  have hreg (i : Nat) (hi : i < 5) : t.regs.read (0x0B + i) = withDisableBit m i (s.regs.read (0x0B + i)) := by
    have hbyte : byteAt (s.readGives 0x0B 5) i = s.regs.read (0x0B + i) := by
      rw [hs.readGives]
      exact byteAt_reads s.regs 0x0B hi
    rw [← hbyte]
    exact (hwrote.inside i hi).trans (by simp [preservingPayload_eq_map])
  refine ⟨t, ht, hwrote.status, hwrote.res, fun i hi => ?_, fun x hx => ?_,
    (transacted_afterRead s 0x0B 5).same.trans hwrote.same⟩
  · rw [hreg i hi]
    exact ⟨low7_withDisableBit m _ (by omega), withDisableBit_bit7 m _ (by omega)⟩
  · rw [hwrote.outside x hx, hmidRegs]

/-- Settles O32: the payload of either operation decides what the registers hold, and neither reads what was there. -/
theorem quirkLeavesNoOrderThatWorks : Obligations.QuirkLeavesNoOrderThatWorks := by
  intro m sec min hr day wd s hc h
  obtain ⟨t, ht, henabled⟩ := (enableAlarm_writesOnce hc m).1 h
  obtain ⟨u, hu, hset⟩ := (setAlarm_writesOnce sec min hr day wd s).1 h
  refine ⟨⟨t, ht, fun i hi => ?_⟩, ⟨u, hu, fun i hi => ?_⟩⟩
  · have hreg : t.regs.read (0x0B + i) = disableBit m i :=
      (henabled.inside i hi).trans (by simp [clobberPayload_eq_map])
    rw [hreg]
    exact low7_disableBit m (by omega)
  · have hreg : u.regs.read (0x0B + i) = (alarmPayload sec min hr day wd)[i]'hi := hset.inside i hi
    rw [hreg]
    exact alarmPayload_bit7 sec min hr day wd i hi

end Sys2Proof.Machine
end

section
/-! PROOFS. The statements of 43_timer.md: the timer's single transactions, what two writes in a row leave in the
registers, and the Timer mode byte bit by bit. -/

namespace Sys2Proof.Machine

/-! ### The timer transactions (R110 to R114) -/

theorem setTimer_writesOnce (v m : Byte) (s : State) : WritesOnce (.setTimer v m) 0x10 [v, m] s :=
  writeOp_endsInWrite 0x10 [v, m] s

theorem setTimerMode_writesOnce (m : Byte) (s : State) : WritesOnce (.setTimerMode m) 0x11 [m] s :=
  writeOp_endsInWrite 0x11 [m] s

theorem setTimerValue_writesOnce (v : Byte) (s : State) : WritesOnce (.setTimerValue v) 0x10 [v] s :=
  writeOp_endsInWrite 0x10 [v] s

theorem getTimerMode_readsOnce (s : State) : ReadsOnce .getTimerMode 0x11 1 (fun d => [byteAt d 0]) s :=
  readOp_readsOnce 0x11 1 _ s

theorem getTimerValue_readsOnce (s : State) : ReadsOnce .getTimerValue 0x10 1 (fun d => [byteAt d 0]) s :=
  readOp_readsOnce 0x10 1 _ s

/-- Settles O33: each operation is one write, and its payload is its operands. -/
theorem timerWritesMoveBytesUnchanged : Obligations.TimerWritesMoveBytesUnchanged :=
  fun v m => ⟨rfl, rfl, rfl, fun s =>
    ⟨setTimer_writesOnce v m s, setTimerMode_writesOnce m s, setTimerValue_writesOnce v s⟩⟩

/-- Settles O34: each operation is one read of one byte, and its result is that byte. -/
theorem timerReadsReturnTheByte : Obligations.TimerReadsReturnTheByte :=
  ⟨by decide, by decide, fun s => ⟨getTimerMode_readsOnce s, getTimerValue_readsOnce s⟩⟩

/-! ### One write against two (R115) -/

/-- A payload may be cut in two: its second part goes to the registers after its first (R45). -/
theorem Memory.writes_append (m : Memory) (a : Nat) (v w : List Byte) :
    m.writes a (v ++ w) = (m.writes a v).writes (a + v.length) w := by
  induction v generalizing m a with
  | nil => rfl
  | cons b v ih =>
    rw [List.cons_append, Memory.writes, ih, Memory.writes, List.length_cons, Nat.add_right_comm, Nat.add_assoc]

@[simp] theorem State.afterWrite_regs (s : State) (a : Byte) (v : List Byte) :
    (s.afterWrite a v).regs = s.reach.regs.writes a.toNat v := by
  simp [State.afterWrite]

/-- A write against the storing mock succeeds and changes the registers as they stand (R53). -/
theorem State.storing.writeOp {s : State} (h : s.storing) (a : Byte) (v : List Byte) :
    ∃ t, writeOp a v s = .next t ∧ t.regs = s.regs.writes a.toNat v ∧ Wrote s t a v := by
  rcases writeOp_cases a v s with ⟨-, hw⟩ | ⟨e, he, -⟩ | ⟨hn, -⟩
  · refine ⟨_, hw, ?_, wrote_afterWrite s a v⟩
    rw [State.respond_regs, State.afterWrite_regs, State.reach_of_nil h.1]
  · simp [h.nextAnswer, Answer.failure] at he
  · simp [h.nextAnswer] at hn

/-- Settles O35: the mode goes to the register after the value's, in the same transaction or in the next. -/
theorem setTimerIsValueThenMode : Obligations.SetTimerIsValueThenMode := by
  intro v m s hs
  obtain ⟨t, ht, hregs, hwrote⟩ := hs.writeOp 0x10 [v, m]
  obtain ⟨t1, ht1, hregs1, hwrote1⟩ := hs.writeOp 0x10 [v]
  obtain ⟨t2, ht2, hregs2, hwrote2⟩ := (hwrote1.storing hs).writeOp 0x11 [m]
  have himage : t.regs = t2.regs :=
    calc t.regs
      _ = s.regs.writes 0x10 ([v] ++ [m]) := hregs
      _ = (s.regs.writes 0x10 [v]).writes 0x11 [m] := Memory.writes_append s.regs 0x10 [v] [m]
      _ = t2.regs := by rw [hregs2, hregs1]; rfl
  refine ⟨t, t1, t2, ht, ht1, ht2, himage, hwrote.status.trans hwrote2.status.symm,
    hwrote.res.trans hwrote2.res.symm, ?_, ?_⟩
  · simp [hwrote.trace]
  · simp [hwrote2.trace, hwrote1.trace]

/-! ### Fields of one bit (R8, R65) -/

/-- A 1-bit field is decided by bit 0 of its byte. -/
theorem low1_eq_setWidth (b : Byte) : low1 b = BitVec.setWidth 8 (BitVec.ofBool (b.getLsbD 0)) :=
  BitVec.and_one_eq_setWidth_ofBool_getLsbD

/-- Bit `n` of one byte is the 1-bit field of another when the bits agree. -/
theorem bitAt_eq_low1 {b c : Byte} {n : Nat} (h : b.getLsbD n = c.getLsbD 0) : bitAt b n = low1 c := by
  have hbit : (b >>> n).getLsbD 0 = b.getLsbD n := BitVec.getLsbD_ushiftRight b n 0
  rw [low1_eq_setWidth, ← h, ← hbit]
  exact low1_eq_setWidth (b >>> n)

theorem bitAt_zero (b : Byte) : bitAt b 0 = low1 b := bitAt_eq_low1 rfl

/-! ### The Timer mode byte (R120, R121, R122) -/

/-- Bits 2:0 of a packed byte are the three 1-bit fields (R30, R120). -/
theorem getLsbD_packTimer (tiTp tie te tcf : Byte) :
    (packTimer tiTp tie te tcf).getLsbD 0 = tiTp.getLsbD 0 ∧
    (packTimer tiTp tie te tcf).getLsbD 1 = tie.getLsbD 0 ∧
    (packTimer tiTp tie te tcf).getLsbD 2 = te.getLsbD 0 := by
  simp [packTimer, low1, low2]

/-- Bits 4:3 of a packed byte are the 2-bit field (R30, R120). -/
theorem low2_packTimer (tiTp tie te tcf : Byte) : low2 (packTimer tiTp tie te tcf >>> 3) = low2 tcf := by
  ext k hk
  interval_cases k <;> simp [packTimer, low1, low2]

/-- Unpacking what was packed reduces each field to its width (R122). -/
theorem unpackTimer_packTimer (tiTp tie te tcf : Byte) :
    unpackTimer (packTimer tiTp tie te tcf) = [low1 tiTp, low1 tie, low1 te, low2 tcf] := by
  obtain ⟨h0, h1, h2⟩ := getLsbD_packTimer tiTp tie te tcf
  rw [unpackTimer, bitAt_eq_low1 h0, bitAt_eq_low1 h1, bitAt_eq_low1 h2, low2_packTimer]

/-- Packing what was unpacked keeps bits 4:0 (R122). -/
theorem packTimer_unpackTimer (mode : Byte) :
    packTimer (bitAt mode 0) (bitAt mode 1) (bitAt mode 2) (low2 (mode >>> 3)) = mode &&& 0x1F := by
  ext k hk
  interval_cases k <;> simp [packTimer, low1, low2, bitAt]

theorem exec_packTimerMode (tiTp tie te tcf : Byte) (s : State) :
    exec (.packTimerMode tiTp tie te tcf) s = .next (s.respond [packTimer tiTp tie te tcf]) := rfl

theorem exec_unpackTimerMode (mode : Byte) (s : State) :
    exec (.unpackTimerMode mode) s = .next (s.respond (unpackTimer mode)) := rfl

/-- Settles O36: the byte is `packTimer`, the fields are `unpackTimer`, and a response is all that changes. -/
theorem timerModeFields : Obligations.TimerModeFields := by
  refine ⟨fun p i e f s => ⟨rfl, exec_packTimerMode p i e f s⟩, fun b s => ⟨rfl, ?_⟩⟩
  rw [exec_unpackTimerMode, unpackTimer, bitAt_zero]
  rfl

/-- Settles O37: the second command answers with `unpackTimer` of `packTimer`, or `packTimer` of `unpackTimer`. -/
theorem timerModePackUnpackLaws : Obligations.TimerModePackUnpackLaws := by
  constructor
  · intro a b c d s
    refine ⟨_, _, exec_packTimerMode a b c d s, exec_unpackTimerMode _ _, ?_, rfl⟩
    exact congrArg results (unpackTimer_packTimer a b c d)
  · intro m s
    refine ⟨_, _, exec_unpackTimerMode m s, exec_packTimerMode _ _ _ _ _, ?_, rfl⟩
    exact congrArg (fun b => results [b]) (packTimer_unpackTimer m)

end Sys2Proof.Machine
end

section
/-! PROOFS. The statements of 44_offset_control_ram.md: the single transactions of the offset, control, RAM and
oscillator-stop operations, the Offset byte and its sign, the two sequences of `clearOS` with what they leave on the
storing mock, and the Control bytes bit by bit. -/

namespace Sys2Proof.Machine

/-! ### The single transactions (R125 to R139) -/

theorem setOffset_writesOnce (m o : Byte) (s : State) : WritesOnce (.setOffset m o) 0x02 [packOffset m o] s :=
  writeOp_endsInWrite 0x02 _ s

theorem getOffset_readsOnce (s : State) :
    ReadsOnce .getOffset 0x02 1 (fun d => [offsetMode (byteAt d 0), offsetValue (byteAt d 0)]) s :=
  readOp_readsOnce 0x02 1 _ s

theorem setControl1_writesOnce (b : Byte) (s : State) : WritesOnce (.setControl1 b) 0x00 [b] s :=
  writeOp_endsInWrite 0x00 [b] s

theorem setControl2_writesOnce (b : Byte) (s : State) : WritesOnce (.setControl2 b) 0x01 [b] s :=
  writeOp_endsInWrite 0x01 [b] s

theorem setRam_writesOnce (b : Byte) (s : State) : WritesOnce (.setRam b) 0x03 [b] s := writeOp_endsInWrite 0x03 [b] s

theorem getControl1_readsOnce (s : State) : ReadsOnce .getControl1 0x00 1 (fun d => [byteAt d 0]) s :=
  readOp_readsOnce 0x00 1 _ s

theorem getControl2_readsOnce (s : State) : ReadsOnce .getControl2 0x01 1 (fun d => [byteAt d 0]) s :=
  readOp_readsOnce 0x01 1 _ s

theorem getRam_readsOnce (s : State) : ReadsOnce .getRam 0x03 1 (fun d => [byteAt d 0]) s := readOp_readsOnce 0x03 1 _ s

theorem getOS_readsOnce (s : State) : ReadsOnce .getOS 0x04 1 (fun d => [osFlag (byteAt d 0)]) s :=
  readOp_readsOnce 0x04 1 _ s

/-- Settles O38: the byte of the statement is `packOffset`. -/
theorem setOffsetWritesOneByte : Obligations.SetOffsetWritesOneByte := fun m o => ⟨rfl, setOffset_writesOnce m o⟩

/-- Settles O39: the results of the statement are `offsetMode` and `offsetValue`. -/
theorem getOffsetSplitsTheByte : Obligations.GetOffsetSplitsTheByte := ⟨by decide, getOffset_readsOnce⟩

/-- Settles O41: each operation is one write, and its payload is its operand. -/
theorem controlWritesMoveTheByteUnchanged : Obligations.ControlWritesMoveTheByteUnchanged :=
  fun b => ⟨rfl, rfl, rfl, fun s => ⟨setControl1_writesOnce b s, setControl2_writesOnce b s, setRam_writesOnce b s⟩⟩

/-- Settles O42: each operation is one read of one byte, and its result is that byte. -/
theorem controlReadsReturnTheByte : Obligations.ControlReadsReturnTheByte :=
  ⟨by decide, by decide, by decide, fun s => ⟨getControl1_readsOnce s, getControl2_readsOnce s, getRam_readsOnce s⟩⟩

/-- Settles O43: the result of the statement is `osFlag`. -/
theorem getOSReturnsBit7 : Obligations.GetOSReturnsBit7 := ⟨by decide, getOS_readsOnce⟩

/-! ### The storing mock (R53) -/

/-- The environment stays the storing mock through any transaction. -/
theorem Transacted.storing {s s1 : State} {shape : TxShape} (h : Transacted s s1 shape) (hs : s.storing) :
    s1.storing := by
  obtain ⟨hscript, hfailure⟩ := hs
  exact ⟨List.eq_nil_of_suffix_nil (hscript ▸ h.script), h.same.failure.trans hfailure⟩

/-- The environment stays the storing mock through an operation of one read. -/
theorem ReadDone.storing {s t : State} {a : Byte} {n : Nat} {rs : List Byte} (h : ReadDone s t a n rs)
    (hs : s.storing) : t.storing := by
  obtain ⟨hscript, hfailure⟩ := hs
  exact ⟨by rw [h.script, hscript]; rfl, h.same.failure.trans hfailure⟩

/-- The storing mock gives a read of one register that register's byte. -/
theorem State.storing.readGives_one {s : State} (h : s.storing) (a : Byte) :
    s.readGives a 1 = [s.regs.read a.toNat] := h.readGives a 1

/-- Against the storing mock `getOS` returns the OS flag of Seconds as it stands (R139). -/
theorem State.storing.getOS {s : State} (h : s.storing) :
    ∃ t, exec .getOS s = .next t ∧ ReadDone s t 0x04 1 [osFlag (s.regs.read 0x04)] := by
  obtain ⟨t, ht, hdone⟩ := (getOS_readsOnce s).1 h.succeeds
  rw [h.readGives_one] at hdone
  exact ⟨t, ht, hdone⟩

/-! ### The Offset byte (R125 to R128) -/

/-- The mode bit comes back from the packed byte (R128). -/
theorem offsetMode_packOffset (m o : Byte) : offsetMode (packOffset m o) = low1 m := by
  ext k hk
  interval_cases k <;> simp [offsetMode, packOffset, low1, low6]

/-- The low six bits of the value come back from the packed byte (R128). -/
theorem offsetValue_packOffset (m o : Byte) : offsetValue (packOffset m o) = low6 o := by
  ext k hk
  interval_cases k <;> simp [offsetValue, packOffset, low1, low6]

/-- The 6-bit field, sign-extended, is the number it was cut from modulo 64, between -32 and 31 (R126). -/
theorem toInt_low6_ofInt (n : Int) : ((low6 (BitVec.ofInt 8 n)).extractLsb' 0 6).toInt = (n % 256).bmod 64 := by
  have hfield : (low6 (BitVec.ofInt 8 n)).extractLsb' 0 6 = (BitVec.ofInt 8 n).setWidth 6 := by
    rw [← BitVec.setWidth_eq_extractLsb' (by decide), low6, BitVec.setWidth_and]
    exact BitVec.and_allOnes
  have hbyte : ((BitVec.ofInt 8 n).toNat : Int) = n % 256 := by
    rw [BitVec.toNat_ofInt]
    exact Int.toNat_of_nonneg (Int.emod_nonneg n (by decide))
  rw [hfield, BitVec.toInt_setWidth, hbyte]

/-- Cutting a number to six bits loses nothing exactly when it is a signed 6-bit number (R126). -/
theorem emod_256_bmod_64_eq_self_iff (n : Int) : (n % 256).bmod 64 = n ↔ -32 ≤ n ∧ n ≤ 31 := by
  rw [Int.bmod_eq_iff (by decide)]
  omega

/-- Settles O40: the storing mock gives the packed byte back, and unpacking it gives the mode bit and the six bits. -/
theorem offsetRoundTripKeepsSixBits : Obligations.OffsetRoundTripKeepsSixBits := by
  intro m n s hs _ _
  obtain ⟨t, ht, hwrote⟩ := (setOffset_writesOnce m (BitVec.ofInt 8 n) s).1 hs.succeeds
  have hstoring : t.storing := hwrote.storing hs
  obtain ⟨u, hu, hdone⟩ := (getOffset_readsOnce t).1 hstoring.succeeds
  have hbytes : t.readGives 0x02 1 = [packOffset m (BitVec.ofInt 8 n)] := (hstoring.readGives 0x02 1).trans hwrote.reads
  have hres : u.res = results [low1 m, low6 (BitVec.ofInt 8 n)] := by
    rw [hdone.res, hbytes, ← offsetMode_packOffset m (BitVec.ofInt 8 n), ← offsetValue_packOffset m]
    rfl
  refine ⟨t, u, ht, hu, hres, ?_⟩
  calc (u.res[1].extractLsb' 0 6).toInt = n
    _ ↔ ((low6 (BitVec.ofInt 8 n)).extractLsb' 0 6).toInt = n := by rw [hres]; rfl
    _ ↔ -32 ≤ n ∧ n ≤ 31 := by rw [toInt_low6_ofInt, emod_256_bmod_64_eq_self_iff]

/-! ### The OS flag (R27, R139, R140) -/

/-- Clearing OS keeps the other seven bits, whether OS was set or not. -/
theorem clearOsFlag_setOsFlag (b : Byte) : clearOsFlag (setOsFlag b) = clearOsFlag b := by
  rw [clearOsFlag, setOsFlag, low7, BitVec.and_or_distrib_right]
  exact BitVec.or_zero

theorem osFlag_clearOsFlag (b : Byte) : osFlag (clearOsFlag b) = 0 := by
  refine osFlag_of_lt ?_
  rw [clearOsFlag, low7, toNat_and_lowMask (n := 7) rfl]
  exact Nat.mod_lt _ (by decide)

/-! ### The literal `clearOS` up to its last write (R141) -/

/-- The state in which the literal `clearOS` issues its last write: after the pointer-only write and the raw read. -/
def State.afterPointerAndRawRead (s : State) : State := (rawRead (s.afterWrite 0x04 [])).2

/-- The pointer-only write draws no free value, so the raw read gives the one that is next at its beginning. -/
theorem rawRead_afterPointerWrite (s : State) :
    rawRead (s.afterWrite 0x04 []) = (s.drawn, s.afterPointerAndRawRead) := rfl

@[simp] theorem State.afterPointerAndRawRead_regs (s : State) : s.afterPointerAndRawRead.regs = s.reach.regs := rfl

theorem State.afterPointerAndRawRead_same (s : State) : SameInputs s s.afterPointerAndRawRead :=
  (transacted_afterWrite s 0x04 []).same.trans (transacted_rawRead _).same

theorem State.storing.afterPointerAndRawRead {s : State} (h : s.storing) : s.afterPointerAndRawRead.storing :=
  (transacted_rawRead _).storing ((transacted_afterWrite s 0x04 []).storing h)

/-- An operation that begins with a write goes on after it, or ends with the write's failure and nothing more issued, or
never ends (R141, R153, R155). -/
theorem memWrite_andThen (a : Byte) (v : List Byte) (k : Unit → State → Host.Outcome State Fault Refusal) (s : State) :
    (s.nextAnswer.succeeds = true → (memWrite a v s).andThen k = k () (s.afterWrite a v)) ∧
    (∀ e, s.nextAnswer.failure = some e →
      ∃ t, (memWrite a v s).andThen k = .next t ∧ WriteFailed s t a v e.code s.nextAnswer.stored) ∧
    (s.nextAnswer = .never → (memWrite a v s).andThen k = .fault .transportNeverCompletes) := by
  rcases memWrite_cases a v s with ⟨h, hw⟩ | ⟨e, h, hw⟩ | ⟨h, hw⟩
  · refine ⟨fun _ => by rw [hw]; rfl, fun e he => ?_, fun hn => ?_⟩
    · simp [(Answer.failure_excludes he).1] at h
    · simp [hn, Answer.succeeds] at h
  · obtain ⟨hnot, hsome⟩ := Answer.failure_excludes h
    refine ⟨fun hs => ?_, fun e' he => ?_, fun hn => absurd hn hsome⟩
    · simp [hnot] at hs
    · obtain rfl : e = e' := Option.some.inj (h.symm.trans he)
      exact ⟨_, by rw [hw]; rfl, writeFailed_afterFailedWrite s a v e _⟩
  · refine ⟨fun hs => ?_, fun e he => absurd h (Answer.failure_excludes he).2, fun _ => by rw [hw]; rfl⟩
    simp [h, Answer.succeeds] at hs

/-! ### The two sequences of `clearOS` (R140, R141) -/

theorem exec_clearOS_of_corrected {s : State} (hl : s.clearosLiteral = false) :
    exec .clearOS s =
      (memRead 0x04 1 s).andThen fun d s1 => writeOp 0x04 [clearOsFlag (byteAt d 0)] s1 :=
  if_neg (Bool.eq_false_iff.mp hl)

theorem exec_clearOS_of_literal {s : State} (hl : s.clearosLiteral = true) :
    exec .clearOS s =
      (memWrite 0x04 [] s).andThen fun _ s1 => writeOp 0x04 [clearOsFlag (rawRead s1).1] (rawRead s1).2 :=
  if_pos hl

/-- The corrected `clearOS` writes back the Seconds it read, OS cleared (R140). -/
theorem clearOS_endsInWrite_of_corrected {s : State} (hl : s.clearosLiteral = false)
    (h : s.nextAnswer.succeeds = true) :
    EndsInWrite (exec .clearOS s) (s.afterRead 0x04 1) 0x04 [clearOsFlag (byteAt (s.readGives 0x04 1) 0)] := by
  rw [exec_clearOS_of_read_succeeds hl h]
  exact writeOp_endsInWrite 0x04 _ _

/-- The literal `clearOS` writes a free value, OS cleared (R141). -/
theorem clearOS_endsInWrite_of_literal {s : State} (hl : s.clearosLiteral = true) (h : s.nextAnswer.succeeds = true) :
    EndsInWrite (exec .clearOS s) s.afterPointerAndRawRead 0x04 [clearOsFlag s.drawn] := by
  rw [exec_clearOS_of_literal hl, (memWrite_andThen 0x04 [] _ s).1 h, rawRead_afterPointerWrite]
  exact writeOp_endsInWrite 0x04 _ _

/-- Settles O44: the byte of the statement is `clearOsFlag`, and the read's failures are those of `memRead_andThen`. -/
theorem clearOSReadsThenWrites : Obligations.ClearOSReadsThenWrites := by
  refine ⟨by decide, fun s hl => ⟨clearOS_endsInWrite_of_corrected hl, ?_⟩⟩
  rw [exec_clearOS_of_corrected hl]
  exact (memRead_andThen 0x04 1 _ s).2

/-- Settles O45: the state of the statement is `State.afterPointerAndRawRead`, and the first write's failures are those
of `memWrite_andThen`. -/
theorem literalClearOSWritesAnyByte : Obligations.LiteralClearOSWritesAnyByte := by
  intro s hl
  refine ⟨fun h => ⟨s.afterPointerAndRawRead, s.drawn, rfl, rfl, clearOS_endsInWrite_of_literal hl h⟩, ?_⟩
  rw [exec_clearOS_of_literal hl]
  exact (memWrite_andThen 0x04 [] _ s).2

/-! ### `clearOS` on the storing mock (R53, R140, R141) -/

/-- The byte whose bits 6:0 `clearOS` leaves in Seconds: corrected the one that stands there, literal a free value. -/
def State.secondsToWrite (s : State) : Byte := if s.clearosLiteral then s.drawn else s.regs.read 0x04

/-- In both configurations `clearOS` ends in one write to Seconds that succeeds, issued from a state `mid` whose
registers and inputs are those of the beginning. -/
theorem State.storing.clearOS {s : State} (h : s.storing) :
    ∃ mid t, exec .clearOS s = .next t ∧ Wrote mid t 0x04 [clearOsFlag s.secondsToWrite] ∧ mid.storing ∧
      mid.regs = s.regs ∧ SameInputs s mid := by
  have hreach : s.reach.regs = s.regs := by rw [State.reach_of_nil h.1]
  cases hl : s.clearosLiteral with
  | false =>
    have hmid : (s.afterRead 0x04 1).storing := h.afterRead 0x04 1
    obtain ⟨t, ht, hwrote⟩ := (clearOS_endsInWrite_of_corrected hl h.succeeds).1 hmid.succeeds
    have hbyte : byteAt (s.readGives 0x04 1) 0 = s.secondsToWrite := by
      rw [h.readGives_one, State.secondsToWrite, hl]
      rfl
    rw [hbyte] at hwrote
    exact ⟨_, t, ht, hwrote, hmid, (State.afterRead_regs s 0x04 1).trans hreach, (transacted_afterRead s 0x04 1).same⟩
  | true =>
    have hmid : s.afterPointerAndRawRead.storing := h.afterPointerAndRawRead
    obtain ⟨t, ht, hwrote⟩ := (clearOS_endsInWrite_of_literal hl h.succeeds).1 hmid.succeeds
    have hbyte : s.drawn = s.secondsToWrite := by simp [State.secondsToWrite, hl]
    rw [hbyte] at hwrote
    exact ⟨_, t, ht, hwrote, hmid, (State.afterPointerAndRawRead_regs s).trans hreach, s.afterPointerAndRawRead_same⟩

/-- Settles O46: the last write clears OS in the byte it sends, and reaches no other register. -/
theorem clearOSCompletes : Obligations.ClearOSCompletes := by
  intro s hs
  obtain ⟨mid, t, ht, hwrote, hmid, hregs, hsame⟩ := hs.clearOS
  have hseconds : t.regs.read 0x04 = clearOsFlag s.secondsToWrite := hwrote.inside 0 Nat.one_pos
  refine ⟨t, ht, hwrote.status, hwrote.res, hseconds, by rw [hseconds, osFlag_clearOsFlag], fun x hx => ?_,
    hsame.trans hwrote.same⟩
  have hout : x < 0x04 ∨ 0x04 + 1 ≤ x := by omega
  rw [hwrote.outside x hout, State.reach_of_nil hmid.1, hregs]

/-- Settles O47: Seconds holds OS set after the interruption, and the same byte with OS cleared after `clearOS`. -/
theorem oscillatorStopDetectedAndCleared : Obligations.OscillatorStopDetectedAndCleared := by
  intro s hs hl
  have hstopped : (s.powerInterruption []).storing := hs
  obtain ⟨t1, ht1, hread1⟩ := hstopped.getOS
  have hseconds1 : t1.regs.read 0x04 = setOsFlag (s.regs.read 0x04) := by
    rw [hread1.regs, State.reach_of_nil hstopped.1]
    exact s.powerInterruption_read_seconds []
  have hstoring1 : t1.storing := hread1.storing hstopped
  have hcorrected : t1.clearosLiteral = false := hread1.same.clearosLiteral.trans hl
  obtain ⟨mid, t2, ht2, hwrote, hmid, -, -⟩ := hstoring1.clearOS
  have hseconds2 : t2.regs.read 0x04 = clearOsFlag (s.regs.read 0x04) :=
    calc t2.regs.read 0x04
      _ = clearOsFlag t1.secondsToWrite := hwrote.inside 0 Nat.one_pos
      _ = clearOsFlag (setOsFlag (s.regs.read 0x04)) := by simp [State.secondsToWrite, hcorrected, hseconds1]
      _ = clearOsFlag (s.regs.read 0x04) := clearOsFlag_setOsFlag _
  obtain ⟨t3, ht3, hread3⟩ := (hwrote.storing hmid).getOS
  refine ⟨t1, t2, t3, ht1, hread1.status, ?_, ht2, hwrote.status, hseconds2, ht3, hread3.status, ?_⟩
  · rw [hread1.res, State.powerInterruption_read_seconds, osFlag_setOsFlag]
    rfl
  · rw [hread3.res, hseconds2, osFlag_clearOsFlag]
    rfl

/-! ### The Control bytes (R142 to R146) -/

/-- Bits 7, 5, 4, 2, 1 and 0 of a packed Control1 byte are the six 1-bit fields (R21, R142). -/
theorem getLsbD_packC1 (a b c d e f : Byte) :
    (packC1 a b c d e f).getLsbD 7 = a.getLsbD 0 ∧ (packC1 a b c d e f).getLsbD 5 = b.getLsbD 0 ∧
    (packC1 a b c d e f).getLsbD 4 = c.getLsbD 0 ∧ (packC1 a b c d e f).getLsbD 2 = d.getLsbD 0 ∧
    (packC1 a b c d e f).getLsbD 1 = e.getLsbD 0 ∧ (packC1 a b c d e f).getLsbD 0 = f.getLsbD 0 := by
  simp [packC1, low1]

/-- Bits 7 to 3 of a packed Control2 byte are the five 1-bit fields (R22, R144). -/
theorem getLsbD_packC2 (a b c d e f : Byte) :
    (packC2 a b c d e f).getLsbD 7 = a.getLsbD 0 ∧ (packC2 a b c d e f).getLsbD 6 = b.getLsbD 0 ∧
    (packC2 a b c d e f).getLsbD 5 = c.getLsbD 0 ∧ (packC2 a b c d e f).getLsbD 4 = d.getLsbD 0 ∧
    (packC2 a b c d e f).getLsbD 3 = e.getLsbD 0 := by
  simp [packC2, low1, low3]

/-- Bits 2:0 of a packed Control2 byte are the 3-bit field (R22, R144). -/
theorem low3_packC2 (a b c d e f : Byte) : low3 (packC2 a b c d e f) = low3 f := by
  ext k hk
  interval_cases k <;> simp [packC2, low1, low3]

/-- Unpacking a packed Control1 byte reduces each field to its bit (R146). -/
theorem unpackC1_packC1 (a b c d e f : Byte) :
    unpackC1 (packC1 a b c d e f) = [low1 a, low1 b, low1 c, low1 d, low1 e, low1 f] := by
  obtain ⟨h7, h5, h4, h2, h1, h0⟩ := getLsbD_packC1 a b c d e f
  rw [unpackC1, bitAt_eq_low1 h7, bitAt_eq_low1 h5, bitAt_eq_low1 h4, bitAt_eq_low1 h2, bitAt_eq_low1 h1,
    bitAt_eq_low1 h0]

/-- Unpacking a packed Control2 byte reduces each field to its width (R146). -/
theorem unpackC2_packC2 (a b c d e f : Byte) :
    unpackC2 (packC2 a b c d e f) = [low1 a, low1 b, low1 c, low1 d, low1 e, low3 f] := by
  obtain ⟨h7, h6, h5, h4, h3⟩ := getLsbD_packC2 a b c d e f
  rw [unpackC2, bitAt_eq_low1 h7, bitAt_eq_low1 h6, bitAt_eq_low1 h5, bitAt_eq_low1 h4, bitAt_eq_low1 h3, low3_packC2]

/-- Packing an unpacked Control1 byte drops bits 6 and 3 (R146). -/
theorem packC1_unpackC1 (b : Byte) :
    packC1 (bitAt b 7) (bitAt b 5) (bitAt b 4) (bitAt b 2) (bitAt b 1) (bitAt b 0) = b &&& 0xB7 := by
  ext k hk
  interval_cases k <;> simp [packC1, low1, bitAt]

/-- Packing an unpacked Control2 byte gives it back (R146). -/
theorem packC2_unpackC2 (b : Byte) :
    packC2 (bitAt b 7) (bitAt b 6) (bitAt b 5) (bitAt b 4) (bitAt b 3) (low3 b) = b := by
  ext k hk
  interval_cases k <;> simp [packC2, low1, low3, bitAt]

theorem exec_packControl1 (a b c d e f : Byte) (s : State) :
    exec (.packControl1 a b c d e f) s = .next (s.respond [packC1 a b c d e f]) := rfl

theorem exec_unpackControl1 (b : Byte) (s : State) : exec (.unpackControl1 b) s = .next (s.respond (unpackC1 b)) := rfl

theorem exec_packControl2 (a b c d e f : Byte) (s : State) :
    exec (.packControl2 a b c d e f) s = .next (s.respond [packC2 a b c d e f]) := rfl

theorem exec_unpackControl2 (b : Byte) (s : State) : exec (.unpackControl2 b) s = .next (s.respond (unpackC2 b)) := rfl

/-- Settles O49: the bytes are `packC1` and `packC2`, the fields `unpackC1` and `unpackC2`, and a response is all that
changes. -/
theorem controlBytesAsFields : Obligations.ControlBytesAsFields := by
  refine ⟨fun a b c d e f s => ⟨rfl, exec_packControl1 a b c d e f s⟩, fun b s => ⟨rfl, ?_⟩,
    fun a b c d e f s => ⟨rfl, exec_packControl2 a b c d e f s⟩, fun b s => ⟨rfl, exec_unpackControl2 b s⟩⟩
  rw [exec_unpackControl1, unpackC1, bitAt_zero]
  rfl

/-- Settles O50: the second command answers with the packing of what was unpacked, or the unpacking of what was
packed. -/
theorem controlPackUnpackLaws : Obligations.ControlPackUnpackLaws := by
  refine ⟨fun b s => ?_, fun b s => ?_, fun a b c d e f s => ?_, fun a b c d e f s => ?_⟩
  · exact ⟨_, _, exec_unpackControl1 b s, exec_packControl1 _ _ _ _ _ _ _, packC1_unpackC1 b⟩
  · exact ⟨_, _, exec_unpackControl2 b s, exec_packControl2 _ _ _ _ _ _ _, packC2_unpackC2 b⟩
  · exact ⟨_, _, exec_packControl1 a b c d e f s, exec_unpackControl1 _ _,
      congrArg results (unpackC1_packC1 a b c d e f)⟩
  · exact ⟨_, _, exec_packControl2 a b c d e f s, exec_unpackControl2 _ _,
      congrArg results (unpackC2_packC2 a b c d e f)⟩

end Sys2Proof.Machine
end

section
/-! PROOFS. The statements of 60_exceptions.md: when a step completes, and what the response is when it does so with a
failure. Each is proved of the program of an operation (`exec_eq_run`) and then of the operation. -/

namespace Sys2Proof.Machine

/-! ### A transport that completes (R155) -/

theorem State.transportCompletes.nextAnswer_ne_never {s : State} (h : s.transportCompletes) :
    s.nextAnswer ≠ .never := by
  rw [State.nextAnswer]
  cases hscript : s.script with
  | nil =>
    rw [State.nextEvent_nil hscript]
    cases s.failure <;> nofun
  | cons ev evs =>
    rw [State.nextEvent_cons hscript]
    exact h ev (hscript ▸ List.mem_cons_self)

/-- A transaction leaves a suffix of the script, so no answer to come is new. -/
theorem Transacted.transportCompletes {s s1 : State} {shape : TxShape} (h : Transacted s s1 shape)
    (hs : s.transportCompletes) : s1.transportCompletes :=
  fun ev hev => hs ev (h.script.subset hev)

theorem operationInvariant_transportCompletes : OperationInvariant State.transportCompletes where
  drew hs := hs
  transaction h _ hs := h.transportCompletes hs
  respond _ hs := hs
  raise _ hs := hs

theorem memWrite_ne_stuck {s : State} (h : s.nextAnswer ≠ .never) (a : Byte) (v : List Byte) :
    memWrite a v s ≠ .stuck := by
  rcases memWrite_cases a v s with ⟨-, hw⟩ | ⟨e, -, hw⟩ | ⟨hn, -⟩
  · rw [hw]; nofun
  · rw [hw]; nofun
  · exact absurd hn h

theorem memRead_ne_stuck {s : State} (h : s.nextAnswer ≠ .never) (a : Byte) (n : Nat) :
    memRead a n s ≠ .stuck := by
  rcases memRead_cases a n s with ⟨-, hr⟩ | ⟨e, tx, -, -, -, hr⟩ | ⟨hn, -⟩
  · rw [hr]; nofun
  · rw [hr]; nofun
  · exact absurd hn h

/-- A transaction that completes lets the operation complete, if what follows its success does. -/
theorem Tx.andThen_completes {α : Type} {Q : State → Prop} {x : Tx α}
    {k : α → State → Host.Outcome State Fault Refusal} (hstuck : x ≠ .stuck) (hx : x.Leaves Q)
    (hk : ∀ a s1, Q s1 → ∃ t, k a s1 = .next t) : ∃ t, x.andThen k = .next t := by
  cases x with
  | ok a s1 => exact hk a s1 hx
  | failed e s1 => exact ⟨_, rfl⟩
  | stuck => exact absurd rfl hstuck

theorem BusProgram.run_completes (p : BusProgram) {s : State} (hs : s.transportCompletes) :
    ∃ t, p.run s = .next t := by
  induction p generalizing s with
  | respond l => exact ⟨_, rfl⟩
  | draw next ih => exact ih _ (s := s.drew) hs
  | write a v next ih =>
    exact Tx.andThen_completes (memWrite_ne_stuck hs.nextAnswer_ne_never a v) (memWrite_transacted a v s)
      fun _ _ h1 => ih (h1.transportCompletes hs)
  | read a n next ih =>
    exact Tx.andThen_completes (memRead_ne_stuck hs.nextAnswer_ne_never a n) (memRead_transacted a n s)
      fun d _ h1 => ih d (h1.transportCompletes hs)
  | rawRead next ih => exact ih _ ((transacted_rawRead s).transportCompletes hs)

theorem exec_completes (i : Instr) {s : State} (hs : s.transportCompletes) : ∃ t, exec i s = .next t := by
  rw [exec_eq_run]
  exact BusProgram.run_completes _ hs

theorem step_setFailure {s : State} {f : Option BusErr} {rest : List Input} (hi : s.inbox = .setFailure f :: rest) :
    step s = .next { s with inbox := rest, failure := f } := by
  simp [step, hi]

theorem step_completes {s : State} (hs : s.transportCompletes) : ∃ t, step s = .next t := by
  cases hi : s.inbox with
  | nil => exact ⟨_, step_of_inbox_nil hi⟩
  | cons input rest =>
    cases input with
    | command w =>
      cases hd : decode w with
      | ok i =>
        rw [step_command hi hd]
        exact exec_completes i (s := s.accept w rest) hs
      | error e => exact ⟨_, step_illegalCommand hi hd⟩
    | idle moves => exact ⟨_, step_idle hi⟩
    | powerInterruption moves => exact ⟨_, step_powerInterruption hi⟩
    | setFailure f => exact ⟨_, step_setFailure hi⟩

theorem step_keeps_transportCompletes {s t : State} (hs : s.transportCompletes) (h : step s = .next t) :
    t.transportCompletes := by
  rcases step_cases h with ⟨-, rfl⟩ | ⟨w, rest, i, -, -, hx⟩ | ⟨w, rest, e, -, -, rfl⟩ | ⟨moves, rest, -, rfl⟩ |
    ⟨moves, rest, -, rfl⟩ | ⟨f, rest, -, rfl⟩
  case inr.inl => exact exec_keeps operationInvariant_transportCompletes (s := s.accept w rest) hs hx
  all_goals exact hs

/-- Settles O58: progress by `step_completes`, preservation by `step_keeps_transportCompletes`. -/
theorem stepCompletesUnlessTheTransportNeverDoes : Obligations.StepCompletesUnlessTheTransportNeverDoes := by
  intro s hs
  obtain ⟨t, ht⟩ := step_completes hs
  exact ⟨t, ht, step_keeps_transportCompletes hs ht⟩

/-! ### The pure operations (R152, R172) -/

/-- A pure operation gives a response, after one free value at most (R82), and does nothing else. -/
theorem exec_of_not_usesBus {i : Instr} (h : usesBus i = false) (s : State) :
    ∃ l, exec i s = .next (s.respond l) ∨ exec i s = .next (s.drew.respond l) := by
  cases i
  case decToBcd v =>
    rcases Nat.lt_or_ge 99 v.toNat with hv | hv
    · exact ⟨_, .inr (exec_decToBcd_of_gt hv s)⟩
    · exact ⟨_, .inl (exec_decToBcd_of_le hv s)⟩
  case bcdToDec | packTimerMode | unpackTimerMode | packControl1 | unpackControl1 | packControl2 | unpackControl2 =>
    exact ⟨_, .inl rfl⟩
  all_goals cases h

theorem exec_pure_completes {i : Instr} (h : usesBus i = false) (s : State) :
    ∃ t, exec i s = .next t ∧ t.status = 0x00 ∧ t.regs = s.regs ∧ t.trace = s.trace := by
  obtain ⟨l, hx | hx⟩ := exec_of_not_usesBus h s
  · exact ⟨_, hx, rfl, rfl, rfl⟩
  · exact ⟨_, hx, rfl, rfl, rfl⟩

/-! ### The first transaction of a bus operation fails or never completes (R151, R155) -/

theorem memWrite_of_pointerFails {s : State} {e : BusErr} (h : s.nextAnswer = .pointerFails e) (a : Byte)
    (v : List Byte) : memWrite a v s = .failed e (s.reach.losePointer.issued (.write a v e.code)) := by
  simp [memWrite, h]

theorem memRead_of_pointerFails {s : State} {e : BusErr} (h : s.nextAnswer = .pointerFails e) (a : Byte) (n : Nat) :
    memRead a n s = .failed e (s.reach.losePointer.issued (.read a n e.code none)) := by
  simp [memRead, h]

/-- A program that begins with a transaction ends with it when its address phase fails: nothing is stored, and nothing
further issued (R54, R151, R153). -/
theorem BusProgram.Issues.run_of_pointerFails {p : BusProgram} {shapes : List TxShape} (hp : p.Issues shapes)
    (hfirst : p.Transacts) {s : State} {e : BusErr} (h : s.nextAnswer = .pointerFails e) :
    ∃ tx, p.run s = .next ((s.reach.losePointer.issued tx).raiseBusTransactionError e) ∧ tx.status = e.code ∧
      shapes.head? = some tx.shape := by
  cases hp with
  | write a v _ => exact ⟨_, by rw [BusProgram.run, memWrite_of_pointerFails h]; rfl, rfl, rfl⟩
  | read a n _ => exact ⟨_, by rw [BusProgram.run, memRead_of_pointerFails h]; rfl, rfl, rfl⟩
  | respond | draw | rawRead => exact hfirst.elim

theorem exec_of_pointerFails {i : Instr} (hbus : usesBus i = true) {s : State} {e : BusErr}
    (h : s.nextAnswer = .pointerFails e) :
    ∃ tx, exec i s = .next ((s.reach.losePointer.issued tx).raiseBusTransactionError e) ∧ tx.status = e.code ∧
      (busTable i s.alarmEnableClobber s.clearosLiteral).head? = some tx.shape := by
  rw [exec_eq_run]
  exact (program_issues i _ _).run_of_pointerFails (program_transacts hbus _ _) h

theorem BusProgram.run_of_never {p : BusProgram} (hfirst : p.Transacts) {s : State} (h : s.nextAnswer = .never) :
    p.run s = .fault .transportNeverCompletes := by
  cases p with
  | write a v next => exact (memWrite_andThen a v _ s).2.2 h
  | read a n next => exact (memRead_andThen a n _ s).2.2 h
  | respond | draw | rawRead => exact hfirst.elim

/-- The storing mock with a failure setting fails the address phase with it (R53). -/
theorem nextAnswer_of_failing {s : State} {e : BusErr} (h : s.script = []) (hf : s.failure = some e) :
    s.nextAnswer = .pointerFails e := by
  rw [State.nextAnswer, State.nextEvent_nil h, hf]
  rfl

/-- Settles O51: a bus operation by `exec_of_pointerFails`, the mock moving no register; a pure one by
`exec_pure_completes`. -/
theorem addressPhaseFailureReturnsStatusAndZeros : Obligations.AddressPhaseFailureReturnsStatusAndZeros := by
  intro i e s hscript hfailure
  refine ⟨fun hbus => ?_, fun hpure => ?_⟩
  · obtain ⟨tx, hx, hstatus, hshape⟩ := exec_of_pointerFails hbus (nextAnswer_of_failing hscript hfailure)
    rw [State.reach_of_nil hscript] at hx
    exact ⟨_, tx, hx, rfl, rfl, rfl, rfl, hstatus, hshape⟩
  · obtain ⟨t, hx, hstatus, -, htrace⟩ := exec_pure_completes hpure s
    exact ⟨t, hx, hstatus, htrace⟩

/-- Settles O59: a bus operation begins with a transaction that never ends; a pure one by `exec_pure_completes`. -/
theorem onlyBusOperationsCanHang : Obligations.OnlyBusOperationsCanHang := by
  refine fun i s => ⟨fun hbus hnever => ?_, fun hpure => exec_pure_completes hpure s⟩
  rw [exec_eq_run]
  exact BusProgram.run_of_never (program_transacts hbus _ _) hnever

/-! ### The results of a failure (R151) -/

theorem State.respond_failureIsZero (s : State) (l : List Byte) : (s.respond l).failureIsZero :=
  fun h => absurd rfl h

theorem State.raiseBusTransactionError_failureIsZero (s : State) (e : BusErr) :
    (s.raiseBusTransactionError e).failureIsZero := fun _ => rfl

theorem State.illegalCommand_failureIsZero (s : State) : s.illegalCommand.failureIsZero := fun _ => rfl

theorem BusProgram.run_failureIsZero {p : BusProgram} {s t : State} (h : p.run s = .next t) : t.failureIsZero := by
  induction p generalizing s with
  | respond l =>
    injection h with h
    exact h ▸ s.respond_failureIsZero l
  | draw next ih => exact ih _ h
  | write a v next ih =>
    rcases Tx.andThen_next (memWrite_transacted a v s) h with ⟨_, s1, -, hk⟩ | ⟨e, s1, -, rfl⟩
    · exact ih hk
    · exact s1.raiseBusTransactionError_failureIsZero e
  | read a n next ih =>
    rcases Tx.andThen_next (memRead_transacted a n s) h with ⟨d, s1, -, hk⟩ | ⟨e, s1, -, rfl⟩
    · exact ih d hk
    · exact s1.raiseBusTransactionError_failureIsZero e
  | rawRead next ih => exact ih _ h

theorem exec_failureIsZero {i : Instr} {s t : State} (h : exec i s = .next t) : t.failureIsZero :=
  BusProgram.run_failureIsZero (exec_eq_run i s ▸ h)

/-- Settles O55: every response is `OK`, the transport's error or that of an illegal command; no other input touches the
response. -/
theorem failureResultsAreZero : Obligations.FailureResultsAreZero := by
  refine ⟨fun s t w rest hi h => ?_, fun s t hs h => ?_⟩
  · cases hd : decode w with
    | ok i => exact exec_failureIsZero (step_command hi hd ▸ h)
    | error e =>
      rw [step_illegalCommand hi hd] at h
      injection h with h
      exact h ▸ (s.accept w rest).illegalCommand_failureIsZero
  · rcases step_cases h with ⟨-, rfl⟩ | ⟨w, rest, i, -, -, hx⟩ | ⟨w, rest, e, -, -, rfl⟩ | ⟨moves, rest, -, rfl⟩ |
      ⟨moves, rest, -, rfl⟩ | ⟨f, rest, -, rfl⟩
    case inr.inl => exact exec_failureIsZero hx
    case inr.inr.inl => exact (s.accept w rest).illegalCommand_failureIsZero
    all_goals exact hs

/-! ### An illegal command (R67, R154) -/

theorem exists_decode_eq_error {w : Word64} (h : byteOf w 0 ∉ opcodes) : ∃ e, decode w = .error e := by
  cases hd : decode w with
  | ok i => exact absurd (exists_decode_eq_ok_iff.mp ⟨i, hd⟩) h
  | error e => exact ⟨e, rfl⟩

/-- Settles O8: the word does not decode, and the state of the statement is `State.illegalCommand` of the accepted
one. -/
theorem illegalCommandChangesNothing : Obligations.IllegalCommandChangesNothing := by
  intro s w rest hi hop
  obtain ⟨e, hd⟩ := exists_decode_eq_error hop
  exact step_illegalCommand hi hd

end Sys2Proof.Machine
end
